-- ==== Sys2Proof/Word.lean ====
section
/-! DEFINITION. The word types of the device: every register is 32 bits wide (00_scope.md, "Registers"), a byte is
8 bits (R7); who performs a register access (20_register_map.md R520); a hardware thread and the fields of an encoded
Petal instruction (07_petal_encoding.md R224 to R227). -/

namespace Sys2Proof

/-- A 32-bit word: a register, a Petal value (R7, R10). -/
abbrev Word := BitVec 32

/-- A byte (R7). -/
abbrev Byte := BitVec 8

/-- Who performs a register access (20_register_map.md R520). `vf v` is virtual function v + 1. -/
inductive Req where
  | pf
  | vf (v : Fin 32)
  | steward
  | jtag
  deriving DecidableEq, Repr

/-- A hardware thread: core 0 to 131 and its number in the core (06 R199, R213). -/
structure Thr where
  core   : Fin 132
  thread : Fin 8
  deriving DecidableEq, Repr

/-- The prefixes and fields of one fetched Petal instruction (07 R225 to R227). `size`: 0 no size prefix, 1 B, 2 H, 3 W,
4 T. `pred`: 0 none, 1 Z, 2 NZ, 3 C, 4 NC. `imm`: the immediate after the extension of R226; for MTC and MFC 16 times the
unit plus the c-register; for CRC the variant's size, 0 byte, 1 half-word, 2 word. `err`: the memory error the instruction
meets, 0 none, 1 an uncorrectable error in its fetch, 2 an uncorrectable error in the data it reads (06 R195). -/
structure Form where
  size : Fin 5
  pred : Fin 5
  imx  : Bool
  co   : Bool
  rd   : Fin 16
  rs   : Fin 16
  rt   : Fin 16
  imm  : Word
  err  : Fin 3
  deriving DecidableEq, Repr

end Sys2Proof
end

