-- ==== Sys2Proof/Syntax.lean ====
section
/-! DEFINITION. The commands of the device: one constructor per row of opcode_table.json, with the operands the environment
supplies. `r` is the requester that writes the command (20 R520); `th` the thread that executes an instruction and `f` the
instruction as fetched; `fa` and `fb` what the two boot flashes hold: the steward firmware and the structure image, none for a
flash that fails (19 R508). The commands that the device holds while the steward is down come first (19 R513). -/

namespace Sys2Proof

inductive Instr where
  /-- LCK_ACQUIRE (R328): Steward ACQUIRE waits for and takes a lock of any instance. -/
  | lckAcquire (r : Req)
  /-- LCK_RELEASE (R328): Steward RELEASE releases a lock the steward holds. -/
  | lckRelease (r : Req)
  /-- LCK_FORCE (R325): Steward FORCE force-releases a lock of any instance. -/
  | lckForce (r : Req)
  /-- INS_CREATE (R433): CREATE starts creating an instance by zeroing its DRAM region, scratch, pool area and core memory. -/
  | insCreate (r : Req) (i : Fin 32)
  /-- INS_START (R432): START starts an instance's threads and commits a new epoch. -/
  | insStart (r : Req) (i : Fin 32)
  /-- INS_RESET (R436): RESET starts the instance reset sequence of a running instance. -/
  | insReset (r : Req) (i : Fin 32)
  /-- INS_REMOVE (R432): REMOVE resets a running instance if needed and makes it ABSENT. -/
  | insRemove (r : Req) (i : Fin 32)
  /-- HOST_EVENT (R435): INS_HEVT sends HOST_EVENT with a data word to a posy's supervisor. -/
  | hostEvent (r : Req) (inst : Fin 32) (x : Fin 256)
  /-- FABORT_DMA (R438): Function Abort of KIND DMA stops every ring of a function with ABORTED. -/
  | fabortDma (r : Req) (f : Fin 33)
  /-- FABORT_POSY (R438): Function Abort of KIND POSY stops a posy subtree, drops its items and restarts its threads. -/
  | fabortPosy (r : Req) (x : Fin 256)
  /-- FABORT_CONTEXT (R438): Function Abort of KIND CONTEXT discards and frees one coprocessor context. -/
  | fabortContext (r : Req) (k : Fin 32) (u x : Fin 8)
  /-- FABORT_LEARNQ (R438): Function Abort of KIND LEARNQ disables a learn queue and removes its filter entries. -/
  | fabortLearnq (r : Req) (i : Fin 32) (p : Fin 4)
  /-- NEWCHAL (R454): NEWCHAL replaces the requester's challenge with 16 random bytes. -/
  | newchal (r : Req)
  /-- SUBMIT (R454): SUBMIT judges the staged token and opens a debug session or programs a fuse, then replaces the challenge. -/
  | submit (r : Req)
  /-- SEC_LOCK (R455): LOCK ends the requester's open debug session. -/
  | secLock (r : Req)
  /-- ATTEST (R456): ATTEST requests a signed attestation report over the requester's nonce. -/
  | attest (r : Req) (scope : Bool) (inst : Fin 32)
  /-- ARB_ADVANCE (R450): ARB_ADVANCE raises an anti-rollback counter within the running images' versions. -/
  | arbAdvance (r : Req) (k : Fin 4) (v : Fin 128)
  /-- REGISTER_WRITE (R16): A host, virtual-function or steward write to a register that has no behaviour of its own sets its fields according to their access code and class. -/
  | registerWrite (r : Req) (off : Nat) (be : BitVec 4) (v : Word)
  /-- IDLE_REQ_WRITE (R50): A write of IDLE_REQ makes a block stop taking new operations, or returns a block that IDLE_REQ idled to RUN. -/
  | idleReqWrite (r : Req) (b : Fin 30) (c : Fin 64) (v : Bool)
  /-- BLOCK_DRAIN_DONE (R50): A DRAINING block completes its last operation in flight and enters IDLE. -/
  | blockDrainDone (b : Fin 30) (c : Fin 64)
  /-- H_FIELD_COMMIT (R16): The shadow value last written to an H-class field takes effect at the owning block's commit point. -/
  | hFieldCommit (off : Nat)
  /-- FRAME_RECEIVE (R96): The MAC receives a frame, checks its length, FCS and coding, and passes it through MACsec to ingress admission or discards it. -/
  | frameReceive (m : Fin 64) (fr : List Byte) (coding : Bool) (corr unc : Fin 65536)
  /-- FLOWCTL_FRAME_RECEIVE (R97): The MAC consumes a received PAUSE or PFC frame, counts it and pauses the traffic manager's classes as ING_PORTCFG MODE selects. -/
  | flowctlFrameReceive (m : Fin 64) (fr : List Byte)
  /-- PAUSE_EXPIRE (R97): The pause quanta of a paused priority run out and the traffic manager may again start frames of that class. -/
  | pauseExpire (n : Fin 64) (c : Fin 8)
  /-- CTX_HOLD_EXPIRE (R116): An instance has had no free packet context for ING_WINCFG.HOLD_NS, and every lossless priority of its ports raises XOFF. -/
  | ctxHoldExpire (i : Fin 32)
  /-- FLOWCTL_FRAME_SEND (R117): A queued PAUSE or PFC frame is sent ahead of all data after the frame in progress. -/
  | flowctlFrameSend (n : Fin 64)
  /-- FLOWCTL_REPEAT (R117): While XOFF holds, the PFC or PAUSE frame is sent again every 32,768 quanta. -/
  | flowctlRepeat (n : Fin 64)
  /-- LOCAL_FAULT (R98): The receive side detects a local fault, the transmit side sends Remote Fault, and every XOFF state of the port is cleared. -/
  | localFault (m : Fin 64)
  /-- LANE_LOSS_OF_LOCK (R100): A lane loses lock, sets LOL, raises a SERDES record and starts a full re-adaptation. -/
  | laneLossOfLock (l : Fin 32)
  /-- RETRAIN (R100): The RETRAIN command starts a full re-adaptation of the lane group, interrupting traffic. -/
  | retrain (r : Req) (l : Fin 32)
  /-- RETRAIN_DONE (R100): A retrain of a lane group completes within 50 ms for NRZ or 200 ms for PAM4. -/
  | retrainDone (l : Fin 32)
  /-- EYE_SCAN (R101): The EYE_SCAN command starts an eye measurement with the second sampler, unless a scan is already running. -/
  | eyeScan (r : Req) (l : Fin 32)
  /-- EYE_SCAN_DONE (R101): An eye scan completes and leaves the smallest eye in PRT_EYE. -/
  | eyeScanDone (l : Fin 32) (h w : Fin 65536)
  /-- MSC_INSTALL (R104): INSTALL copies the requester's staged key, salt, SSCI and packet number into key memory and clears the staging bank. -/
  | mscInstall (r : Req) (m c : Fin 64) (an : Fin 4)
  /-- MSC_DELETE (R104): DELETE zeroes the key memory of an association and clears the requester's staging bank. -/
  | mscDelete (r : Req) (m c : Fin 64) (an : Fin 4)
  /-- TX_SWITCH (R106): TX_SWITCH makes the named association the transmit association of its channel from the next transmit frame boundary. -/
  | txSwitch (r : Req) (m c : Fin 64) (an : Fin 4)
  /-- READ_PN (R107): READ_PN copies an association's packet number into the requester's MSC_SAPN registers. -/
  | readPn (r : Req) (m c : Fin 64) (an : Fin 4)
  /-- READ_STATS (R107): READ_STATS copies a channel's IEEE 802.1AE statistics into the requester's MSC_STATS. -/
  | readStats (r : Req) (m c : Fin 64) (an : Fin 4)
  /-- PTP_SET (R109): SET loads the time counter from PTP_SET_SEC and PTP_SET_NS with fraction 0. -/
  | ptpSet (r : Req)
  /-- PTP_STEP (R109): STEP adds the signed PTP_STEP_NS to the time counter. -/
  | ptpStep (r : Req)
  /-- PTP_TIME_LATCH (R110): A read of PTP_TIME_FRAC latches the whole counter into the requester's own latch. -/
  | ptpTimeLatch (r : Req)
  /-- TSF_POP (R112): A read of PTP_TSF_TAG pops one two-step transmit timestamp from the port's FIFO. -/
  | tsfPop (r : Req) (m : Fin 64)
  /-- PPS_OUT_PULSE (R113): PPS_OUT rises when the counter's nanoseconds pass zero, for the width set in PTP_PPSCFG. -/
  | ppsOutPulse
  /-- PPS_IN_CAPTURE (R113): A rising edge of PPS_IN captures the time counter into the PTP_PPSCAP registers. -/
  | ppsInCapture
  /-- SYNC10M_CAPTURE (R113): Every tenth cycle of SYNC10M_IN captures the time counter into the PTP_PPSCAP registers. -/
  | sync10mCapture
  /-- FCBASIC_WRITE (R118): A write to ING_FCBASIC derives the port's mode, guarantees, shared limits, hysteresis and headroom from the MAC's rate and MAX_FRAME. -/
  | fcbasicWrite (r : Req) (n : Fin 64) (v : Word)
  /-- FRAME_TRANSMIT (R111): The MAC transmits a frame, inserting a one-step time where marked and taking a transmit timestamp. -/
  | frameTransmit (n : Fin 64)
  /-- PARSE_PASS (R129): The parser walks the parse graph over the header window, stamps the epoch on the first pass and raises parse flags. -/
  | parsePass (pipe : Fin 4)
  /-- CLASSIFY_PACKET (R153): The classifier performs the key-profile lookups, stream filter and policing, and combines the action lists into the packet's outcome. -/
  | classifyPacket (pipe : Fin 4)
  /-- SCAN_VERDICT (R145): The pattern engine completes a payload scan and delivers its verdict operand. -/
  | scanVerdict (pipe : Fin 4) (v : Word)
  /-- FRAG_ENTRY_EXPIRE (R135): A fragment-follow entry is removed FRAG_LIFE_MS after its creation. -/
  | fragEntryExpire (pipe : Fin 4)
  /-- FRAG_FLUSH (R136): FLUSH empties the pipe's fragment-follow table. -/
  | fragFlush (r : Req) (pipe : Fin 4)
  /-- EPOCH_COMMIT (R140): COMMIT turns an instance's shadow rule set into a new epoch, or sets COMMIT_PEND when no slot is FREE. -/
  | epochCommit (r : Req) (i : Fin 32)
  /-- EPOCH_COMMIT_PENDING (R140): A pending commit takes place 8 FAB cycles after an epoch slot becomes FREE. -/
  | epochCommitPending (i : Fin 32)
  /-- EPOCH_RETIRE (R141): RETIRE makes a DRAINING epoch RETIRED at once. -/
  | epochRetire (r : Req) (i : Fin 32) (e : Fin 65536)
  /-- ACTION_WRITE (R150): WRITE in CLS_ACTCMD writes a whole action-list slot from CLS_ACTDATA after checking its operations and operands. -/
  | actionWrite (r : Req) (pipe : Fin 4)
  /-- PAT_SET_ENABLE (R158): Setting a pattern set's VALID reads and checks its signed automaton. -/
  | patSetEnable (r : Req) (set : Fin 64) (v : Word) (good : Bool)
  /-- TEMPLATE_WRITE (R159): WRITE in EGR_TMPLCMD writes a template from EGR_TMPLDATA, unless a live action list names it. -/
  | templateWrite (r : Req)
  /-- EGRESS_EDIT (R154): The egress editor applies the packet's edit list, fixes checksums and pads or drops it with EDIT_OVERSIZE. -/
  | egressEdit
  /-- GOVERNOR_FRAME (R468): A Hollyhock governor judges a frame toward a network port and passes it to MACsec or drops it with a governor reason. -/
  | governorFrame
  /-- GOV_WINDOW (R469): At each 1 ms boundary of the FAB nanosecond count, TRIPCNT of every port returns to 0. -/
  | govWindow
  /-- HOST_ITEM_CREATE (R163): CREATE in DSP_HCMD creates a HOST work item from DSP_HITEM after the checks of item creation. -/
  | hostItemCreate (r : Req) (inst : Fin 32)
  /-- HOST_MSG_SEND (R166): MSG in DSP_HCMD sends a host message to a waiting item's slot and reports its status. -/
  | hostMsgSend (r : Req) (inst : Fin 32)
  /-- OPERAND_ARRIVE (R165): An operand reaches a waiting item in the matching store, and the item enters its ready list once all its slots are filled. -/
  | operandArrive (e : Fin 16384) (slot : Fin 4)
  /-- MSG_WAIT_EXPIRE (R167): An item that has waited MSG_WAIT_US enters its ready list with every empty MSG slot marked MISSING. -/
  | msgWaitExpire (e : Fin 16384)
  /-- CTX_WAIT_TIMEOUT (R169): A lossy packet that has waited CTX_WAIT_US for a context is dropped with CTX_TIMEOUT. -/
  | ctxWaitTimeout (i : Fin 32) (pipe : Fin 4)
  /-- DISPATCH (R171): The dispatcher delivers up to four ready items in a FAB cycle to eligible worker threads waiting in GETW. -/
  | dispatch
  /-- CONTEXT_RELEASE (R177): A DONE context at the head of its flow is released, sending, freeing or voiding its packet, and freed contexts go to context-wait lists. -/
  | contextRelease
  /-- TIMER_FIRE (R183): A delay-list entry fires at a tick boundary at or after its due time, creating a TIMER item or sending a message. -/
  | timerFire (l : Fin 16)
  /-- DEADLOCK_DETECT (R186): A posy's quiescence detector writes a wait-for snapshot and raises DEADLOCK to the posy's supervisor. -/
  | deadlockDetect (x : Fin 255)
  /-- CORE_PARITY (R199): A parity error in a pipeline register or control state raises a hardware-class fault in the thread. -/
  | coreParity (t : Thr)
  /-- SPARE_JOIN (R212): A spare core joins the retired core's cluster with a copy of its memory, and CORE_JOINED is raised. -/
  | spareJoin (spare : Fin 4) (bad : List (Fin 32768))
  /-- STALL_WDOG_EXPIRE (R203): A thread's stall watchdog expires after STALL_US in STALL or RUN_US holding an item, raising STALL_WDOG. -/
  | stallWdogExpire (t : Thr)
  /-- FAULT_DISP_TIMEOUT (R204): No FDISP arrives within FAULT_US of a program-class fault, and DROP is applied to the HELD thread. -/
  | faultDispTimeout (t : Thr)
  /-- FETCH_LINE_REWRITE (R195): The steward rewrites an instruction-store line that gave an uncorrectable fetch error from its retained copy. -/
  | fetchLineRewrite (cluster : Fin 32) (line : Fin 8192) (ok : Bool)
  /-- STOP_HOLD (R209): STOP_HOLD stops the threads in scope with everything they hold. -/
  | stopHold (r : Req) (scope : Fin 3) (core : Fin 256) (thread : Fin 8) (posy : Fin 256)
  /-- STOP_YIELD (R210): STOP_YIELD stops the threads in scope and releases half-written channels and pending requests. -/
  | stopYield (r : Req) (scope : Fin 3) (core : Fin 256) (thread : Fin 8) (posy : Fin 256)
  /-- DEBUG_RESUME (R210): RESUME restarts stopped threads, first reacquiring any context released as DEBUG_RELEASED. -/
  | debugResume (r : Req) (scope : Fin 3) (core : Fin 256) (thread : Fin 8) (posy : Fin 256)
  /-- DEBUG_STEP (R213): STEP executes one instruction of each stopped thread in scope and stops it again. -/
  | debugStep (r : Req) (scope : Fin 3) (core : Fin 256) (thread : Fin 8) (posy : Fin 256)
  /-- REG_READ (R211): REG_READ reads a stopped thread's register into CORE_DBGDATA and CORE_DBGTAG. -/
  | regRead (r : Req) (t : Thr)
  /-- REG_WRITE (R211): REG_WRITE writes a stopped thread's register with a permitted tag. -/
  | regWrite (r : Req) (t : Thr)
  /-- NOP (R240): NOP commits with no effect. -/
  | nop (th : Thr) (f : Form) (raw : List Byte)
  /-- GETW (R266): GETW disposes of what the thread holds and waits for a work item or, in a supervisor, takes the oldest event. -/
  | getw (th : Thr) (f : Form)
  /-- YIELD (R244): YIELD has the effect and timing of NOP and marks a spin-wait for Harre. -/
  | yield (th : Thr) (f : Form)
  /-- FENCE (R244): FENCE commits once every earlier side effect of the thread has been performed at its target. -/
  | fence (th : Thr) (f : Form)
  /-- LEXIT (R239): LEXIT frees the innermost active loop level. -/
  | lexit (th : Thr) (f : Form)
  /-- MOV (R245): MOV copies a register with its tag, moving a BUF and leaving the source VOID. -/
  | mov (th : Thr) (f : Form)
  /-- MOVI (R245): MOVI loads a sign-extended immediate, or an imm32 with IMX, tagged INT. -/
  | movi (th : Thr) (f : Form)
  /-- MOVIH (R245): MOVIH sets the high half-word of a register from a zero-extended imm16. -/
  | movih (th : Thr) (f : Form)
  /-- SWAP (R245): SWAP exchanges the values and tags of two registers. -/
  | swap (th : Thr) (f : Form)
  /-- CLR (R245): CLR writes 0 with tag VOID to a register. -/
  | clr (th : Thr) (f : Form)
  /-- ADD (R246): ADD writes the sum of two registers and sets Z, N, C and V. -/
  | add (th : Thr) (f : Form)
  /-- SUB (R246): SUB writes the difference of two registers and sets Z, N, C and V. -/
  | sub (th : Thr) (f : Form)
  /-- AND (R246): AND writes the bitwise AND of two registers and sets Z and N. -/
  | and (th : Thr) (f : Form)
  /-- OR (R246): OR writes the bitwise OR of two registers and sets Z and N. -/
  | or (th : Thr) (f : Form)
  /-- XOR (R246): XOR writes the bitwise XOR of two registers and sets Z and N. -/
  | xor (th : Thr) (f : Form)
  /-- SHL (R247): SHL shifts a register left by the whole value of another and sets Z, N and C. -/
  | shl (th : Thr) (f : Form)
  /-- SHR (R247): SHR shifts a register right with zeros in and sets Z, N and C. -/
  | shr (th : Thr) (f : Form)
  /-- SAR (R247): SAR shifts a register right with copies of bit 31 in and sets Z, N and C. -/
  | sar (th : Thr) (f : Form)
  /-- ADDC (R246): ADDC adds two registers and the carry. -/
  | addc (th : Thr) (f : Form)
  /-- SUBC (R246): SUBC subtracts a register and the borrow from another. -/
  | subc (th : Thr) (f : Form)
  /-- MUL (R246): MUL writes the low 32 bits of the product. -/
  | mul (th : Thr) (f : Form)
  /-- MIN (R247): MIN writes the signed lesser of two INT or TIME operands. -/
  | min (th : Thr) (f : Form)
  /-- MAX (R247): MAX writes the signed greater of two INT or TIME operands. -/
  | max (th : Thr) (f : Form)
  /-- MINU (R247): MINU writes the unsigned lesser of two operands. -/
  | minu (th : Thr) (f : Form)
  /-- MAXU (R247): MAXU writes the unsigned greater of two operands. -/
  | maxu (th : Thr) (f : Form)
  /-- ROL (R246): ROL rotates a register left by the low five bits of another. -/
  | rol (th : Thr) (f : Form)
  /-- ADDI (R246): ADDI adds a sign-extended immediate to a register. -/
  | addi (th : Thr) (f : Form)
  /-- SUBI (R246): SUBI subtracts a sign-extended immediate from a register. -/
  | subi (th : Thr) (f : Form)
  /-- ANDI (R246): ANDI ANDs a register with a zero-extended immediate. -/
  | andi (th : Thr) (f : Form)
  /-- ORI (R246): ORI ORs a register with a zero-extended immediate. -/
  | ori (th : Thr) (f : Form)
  /-- XORI (R246): XORI XORs a register with a zero-extended immediate. -/
  | xori (th : Thr) (f : Form)
  /-- SHLI (R246): SHLI shifts a register left by an immediate count. -/
  | shli (th : Thr) (f : Form)
  /-- SHRI (R246): SHRI shifts a register right with zeros in by an immediate count. -/
  | shri (th : Thr) (f : Form)
  /-- SARI (R246): SARI shifts a register right arithmetically by an immediate count. -/
  | sari (th : Thr) (f : Form)
  /-- ROLI (R246): ROLI rotates a register left by an immediate count. -/
  | roli (th : Thr) (f : Form)
  /-- CMP (R246): CMP sets the flags of a subtraction of two registers without writing a register. -/
  | cmp (th : Thr) (f : Form)
  /-- CMPI (R246): CMPI sets the flags of a subtraction of a sign-extended immediate. -/
  | cmpi (th : Thr) (f : Form)
  /-- TST (R246): TST sets Z and N from the AND of two registers. -/
  | tst (th : Thr) (f : Form)
  /-- TSTI (R246): TSTI sets Z and N from the AND of a register and a zero-extended immediate. -/
  | tsti (th : Thr) (f : Form)
  /-- NOT (R246): NOT writes the complement of a register, or 1 minus a BOOL. -/
  | not (th : Thr) (f : Form)
  /-- NEG (R246): NEG writes 0 minus a register and sets Z, N, C and V. -/
  | neg (th : Thr) (f : Form)
  /-- SEXTB (R246): SEXTB sign-extends the low byte of a register. -/
  | sextb (th : Thr) (f : Form)
  /-- SEXTH (R246): SEXTH sign-extends the low half-word of a register. -/
  | sexth (th : Thr) (f : Form)
  /-- ZEXTB (R246): ZEXTB zero-extends the low byte of a register. -/
  | zextb (th : Thr) (f : Form)
  /-- ZEXTH (R246): ZEXTH zero-extends the low half-word of a register. -/
  | zexth (th : Thr) (f : Form)
  /-- BSWAP (R246): BSWAP reverses the four bytes of a register. -/
  | bswap (th : Thr) (f : Form)
  /-- MULW (R248): MULW writes the signed 64-bit product to a register pair. -/
  | mulw (th : Thr) (f : Form)
  /-- MULWU (R248): MULWU writes the unsigned 64-bit product to a register pair. -/
  | mulwu (th : Thr) (f : Form)
  /-- DIV (R248): DIV divides signed, truncating toward zero, or raises DIV_ZERO. -/
  | div (th : Thr) (f : Form)
  /-- DIVU (R248): DIVU divides unsigned, or raises DIV_ZERO. -/
  | divu (th : Thr) (f : Form)
  /-- REM (R248): REM writes the signed remainder, or raises DIV_ZERO. -/
  | rem (th : Thr) (f : Form)
  /-- REMU (R248): REMU writes the unsigned remainder, or raises DIV_ZERO. -/
  | remu (th : Thr) (f : Form)
  /-- CLZ (R248): CLZ writes the number of leading zeros of a register. -/
  | clz (th : Thr) (f : Form)
  /-- CTZ (R248): CTZ writes the number of trailing zeros of a register. -/
  | ctz (th : Thr) (f : Form)
  /-- POPC (R248): POPC writes the number of 1 bits of a register. -/
  | popc (th : Thr) (f : Form)
  /-- BREV (R248): BREV writes a register with its bits reversed. -/
  | brev (th : Thr) (f : Form)
  /-- LD (R249): LD loads core-local memory at base plus displacement, under the tag rules and with load-and-clear of BUF. -/
  | ld (th : Thr) (f : Form)
  /-- LDX (R249): LDX loads core-local memory at the sum of two registers. -/
  | ldx (th : Thr) (f : Form)
  /-- LDS (R249): LDS loads a byte or half-word at base plus displacement, sign-extended. -/
  | lds (th : Thr) (f : Form)
  /-- LDSX (R249): LDSX loads a byte or half-word at the sum of two registers, sign-extended. -/
  | ldsx (th : Thr) (f : Form)
  /-- ST (R249): ST stores a register to core-local memory at base plus displacement, under the tag rules. -/
  | st (th : Thr) (f : Form)
  /-- STX (R249): STX stores a register to core-local memory at the sum of two registers. -/
  | stx (th : Thr) (f : Form)
  /-- HLD (R252): HLD reads header-window bytes at an HOFS offset plus displacement in network order. -/
  | hld (th : Thr) (f : Form)
  /-- HLDX (R252): HLDX reads header-window bytes at the sum of an HOFS and an INT register. -/
  | hldx (th : Thr) (f : Form)
  /-- HOFS (R253): HOFS returns the offset of a header of the parse result, setting Z when it is absent. -/
  | hofs (th : Thr) (f : Form)
  /-- HLEN (R253): HLEN returns the length of a header of the parse result. -/
  | hlen (th : Thr) (f : Form)
  /-- HTYPE (R253): HTYPE returns the TYPE_ID of a header of the parse result. -/
  | htype (th : Thr) (f : Form)
  /-- BR (R254): BR branches to the next address plus a displacement, or to an absolute target with IMX. -/
  | br (th : Thr) (f : Form)
  /-- BCC (R231): BCC branches when its flag condition holds. -/
  | bcc (th : Thr) (f : Form)
  /-- CALL (R255): CALL writes the return address to LNK with tag CODE and branches. -/
  | call (th : Thr) (f : Form)
  /-- CALLR (R254): CALLR calls the address held in a CODE register. -/
  | callr (th : Thr) (f : Form)
  /-- JMPR (R254): JMPR jumps to the address held in a CODE register. -/
  | jmpr (th : Thr) (f : Form)
  /-- RET (R254): RET jumps to the address held in LNK. -/
  | ret (th : Thr) (f : Form)
  /-- LOOP (R237): LOOP starts a hardware loop level with its count from a register. -/
  | loop (th : Thr) (f : Form)
  /-- LOOPI (R237): LOOPI starts a hardware loop level with an 8-bit count. -/
  | loopi (th : Thr) (f : Form)
  /-- LEA (R254): LEA writes the next address plus a displacement with tag CODE. -/
  | lea (th : Thr) (f : Form)
  /-- SEND (R269): SEND disposes of the thread's packet to a queue of the instance with its edit list. -/
  | send (th : Thr) (f : Form)
  /-- SENDI (R269): SENDI disposes of the packet to the queue at an immediate offset. -/
  | sendi (th : Thr) (f : Form)
  /-- DROP (R269): DROP disposes of the thread's packet, dropped with PROG_DROP. -/
  | drop (th : Thr) (f : Form)
  /-- MIRROR (R270): MIRROR copies the packet as received, truncated, to a permitted port without disposing of it. -/
  | mirror (th : Thr) (f : Form)
  /-- RECIRC (R271): RECIRC disposes of the edited packet to port 120, or drops it with RECIRC_LIMIT. -/
  | recirc (th : Thr) (f : Form)
  /-- TOHOST (R269): TOHOST disposes of the packet to the instance's host port with a trap code. -/
  | tohost (th : Thr) (f : Form)
  /-- PKTLEN (R269): PKTLEN returns the packet's FRAME_LEN from the parse result. -/
  | pktlen (th : Thr) (f : Form)
  /-- EDADD (R273): EDADD appends a checked edit operation to the context's edit buffer within the limits. -/
  | edadd (th : Thr) (f : Form)
  /-- EDRD (R272): EDRD reads one word of an operation in the edit buffer. -/
  | edrd (th : Thr) (f : Form)
  /-- ALLOC (R342): ALLOC takes the newest entry of the pipe's cache of the pool or its fallback chain, or returns POOL_EMPTY. -/
  | alloc (th : Thr) (f : Form)
  /-- FREE (R344): FREE passes a handle to the instance gate, which accepts it, disposes of the thread's packet, or refuses it. -/
  | free (th : Thr) (f : Form)
  /-- FREE_APPLY (R345): An accepted free places the index as the newest entry of the pool's cache for the freeing core's pipe. -/
  | freeApply
  /-- CACHE_REFILL (R340): A cache below 16 entries is refilled with up to 32 entries from the ring head and the fresh range. -/
  | cacheRefill (k : Fin 16) (q : Fin 4)
  /-- CACHE_SPILL (R340): A cache above 48 entries moves its 16 oldest entries to the ring tail, discarding any that do not fit. -/
  | cacheSpill (k : Fin 16) (q : Fin 4)
  /-- POOL_ENABLE (R336): A write that sets a pool's VALID judges its placement and initialises its free store. -/
  | poolEnable (r : Req) (k : Fin 16) (v : Word)
  /-- BLD (R276): BLD reads bytes at an offset of a pool buffer or the thread's packet, big-endian. -/
  | bld (th : Thr) (f : Form)
  /-- BST (R276): BST writes bytes at an offset of a pool buffer or the thread's packet, copying the original cell for re-execution first. -/
  | bst (th : Thr) (f : Form)
  /-- ORDX (R178): ORDX moves the context from RUN to UNORD so later contexts of the flow stop waiting for it. -/
  | ordx (th : Thr) (f : Form)
  /-- MKITEM (R278): MKITEM creates a PROGRAM work item from a core-local descriptor, possibly handing off the packet. -/
  | mkitem (th : Thr) (f : Form)
  /-- SENDMSG (R279): SENDMSG sends a message block to a waiting item's slot and returns its status. -/
  | sendmsg (th : Thr) (f : Form)
  /-- LOCK (R280): LOCK requests a global lock of the instance and blocks until the grant. -/
  | lock (th : Thr) (f : Form)
  /-- LOCKI (R280): LOCKI requests the global lock named by an immediate. -/
  | locki (th : Thr) (f : Form)
  /-- UNLOCK (R281): UNLOCK releases a global lock the thread holds and lets the lock unit grant the next waiter. -/
  | unlock (th : Thr) (f : Form)
  /-- TRYLOCK (R281): TRYLOCK acquires a lock only if it wins the grant, and never waits. -/
  | trylock (th : Thr) (f : Form)
  /-- FLOCK (R280): FLOCK requests a fast lock of the cluster and blocks until the grant. -/
  | flock (th : Thr) (f : Form)
  /-- FUNLOCK (R281): FUNLOCK releases a fast lock the thread holds. -/
  | funlock (th : Thr) (f : Form)
  /-- LKSTAT (R327): LKSTAT returns the status word of a lock. -/
  | lkstat (th : Thr) (f : Form)
  /-- LOCK_GRANT (R321): A free lock is granted to its highest-ranked waiter, whose LOCK commits with the grant status in V. -/
  | lockGrant (n : Word)
  /-- AFADD (R282): AFADD atomically adds to a shared word and returns the old value. -/
  | afadd (th : Thr) (f : Form)
  /-- AFAND (R282): AFAND atomically ANDs a shared word and returns the old value. -/
  | afand (th : Thr) (f : Form)
  /-- AFOR (R282): AFOR atomically ORs a shared word and returns the old value. -/
  | afor (th : Thr) (f : Form)
  /-- ASWAP (R282): ASWAP atomically replaces a shared word and returns the old value. -/
  | aswap (th : Thr) (f : Form)
  /-- ACAS (R282): ACAS atomically stores a shared word when it equals the expected value, setting Z when stored. -/
  | acas (th : Thr) (f : Form)
  /-- ATOMIC_PERFORM (R330): The memory controller performs an atomic read-modify-write and returns the old word to the thread. -/
  | atomicPerform (k : Nat) (bad : Bool)
  /-- EVWAIT (R283): EVWAIT takes a pending FORCED or numbered USER_EVENT record, blocking until one arrives. -/
  | evwait (th : Thr) (f : Form)
  /-- EVSIG (R284): EVSIG sends a USER_EVENT with a data word to a thread of the instance. -/
  | evsig (th : Thr) (f : Form)
  /-- CLK (R285): CLK requests a context of a shared unit, blocking until one is granted. -/
  | clk (th : Thr) (f : Form)
  /-- CONTEXT_GRANT (R294): A freed coprocessor context is granted to the first CLK waiter, reporting DEBUG_RELEASED in V. -/
  | contextGrant (k : Fin 32) (u : Fin 7)
  /-- CUL (R301): CUL releases the thread's context of a unit once its committed commands complete. -/
  | cul (th : Thr) (f : Form)
  /-- MTC (R286): MTC copies a register with its tag to a c-register of the thread's context. -/
  | mtc (th : Thr) (f : Form)
  /-- MFC (R286): MFC copies a c-register to a register, moving a BUF. -/
  | mfc (th : Thr) (f : Form)
  /-- COMMAND_COMPLETE (R297): A shared-unit command writes its result registers and c0, clearing their scoreboard bits, and a releasing context is then freed. -/
  | commandComplete (k : Fin 32) (u : Fin 7) (n : Fin 8) (bad : Bool) (vd : Word)
  /-- COMMAND_CANCEL (R300): CANCEL reaches a unit and discards a command not started or the results of one already started. -/
  | commandCancel (k : Fin 32) (u : Fin 7) (n : Fin 8) (code : Fin 16) (started : Bool)
  /-- KEYREF (R306): KEYREF returns a KEY handle to one of the instance's key slots. -/
  | keyref (th : Thr) (f : Form)
  /-- GCM_ENC (R306): GCM_ENC encrypts a buffer region in place with AES-GCM and returns the tag. -/
  | gcmEnc (th : Thr) (f : Form)
  /-- GCM_DEC (R306): GCM_DEC decrypts a buffer region in place when its tag verifies, or returns AUTH_FAIL. -/
  | gcmDec (th : Thr) (f : Form)
  /-- SHA256 (R306): SHA256 returns the digest of a buffer region. -/
  | sha256 (th : Thr) (f : Form)
  /-- LMS_VERIFY (R306): LMS_VERIFY verifies one LMS signature over a digest. -/
  | lmsVerify (th : Thr) (f : Form)
  /-- LKP_LOOKUP (R307): LOOKUP looks up a staged key in a table and returns its result word or MISS. -/
  | lkpLookup (th : Thr) (f : Form)
  /-- LKP_INSERT (R357): INSERT places an absent key in an exact-match or learning table, relocating entries by cuckoo search. -/
  | lkpInsert (th : Thr) (f : Form)
  /-- LKP_UPDATE (R359): UPDATE replaces the stored result of a present key. -/
  | lkpUpdate (th : Thr) (f : Form)
  /-- LKP_DELETE (R359): DELETE clears VALID of a present key. -/
  | lkpDelete (th : Thr) (f : Form)
  /-- LKP_HITREAD (R307): HITREAD returns the hit bit of a present key without clearing it. -/
  | lkpHitread (th : Thr) (f : Form)
  /-- PAT_SCAN (R308): SCAN submits buffer bytes to the pipe's pattern engine and returns the verdict. -/
  | patScan (th : Thr) (f : Form)
  /-- POLICE (R309): POLICE applies a policer's procedure to a length and colour and returns the outgoing colour. -/
  | police (th : Thr) (f : Form)
  /-- MTR_COUNT (R309): COUNT adds 1 and a byte count to a 64-bit counter pair in DRAM. -/
  | mtrCount (th : Thr) (f : Form)
  /-- CNTREAD (R309): CNTREAD returns a counter pair's packet and byte counts. -/
  | cntread (th : Thr) (f : Form)
  /-- CNTCLR (R309): CNTCLR returns a counter pair and zeroes it in the same atomic operation. -/
  | cntclr (th : Thr) (f : Form)
  /-- COPY (R310): COPY moves bytes between core-local memory, scratch, DRAM and buffers, stopping at a disallowed tag. -/
  | copy (th : Thr) (f : Form)
  /-- FILL (R310): FILL writes a repeated pattern word over a destination. -/
  | fill (th : Thr) (f : Form)
  /-- ARM_CREATE (R312): ARM_CREATE arms a delay-list entry that creates a TIMER item when it fires. -/
  | armCreate (th : Thr) (f : Form)
  /-- ARM_MSG (R312): ARM_MSG arms a delay-list entry that sends a message when it fires. -/
  | armMsg (th : Thr) (f : Form)
  /-- DISARM (R312): DISARM cancels an armed delay-list entry, or reports FIRED or STALE. -/
  | disarm (th : Thr) (f : Form)
  /-- HMSG (R313): HMSG places a 32-byte message in a host message queue and may request its interrupt. -/
  | hmsg (th : Thr) (f : Form)
  /-- CRC32C (R289): CRC32C advances a reflected CRC-32C register over 1, 2 or 4 bytes. -/
  | crc32c (th : Thr) (f : Form)
  /-- CRC32 (R289): CRC32 advances a reflected CRC-32 register over 1, 2 or 4 bytes. -/
  | crc32 (th : Thr) (f : Form)
  /-- CRC16R (R289): CRC16R advances a reflected 16-bit CRC with polynomial 0x8005. -/
  | crc16r (th : Thr) (f : Form)
  /-- CRC16N (R289): CRC16N advances a non-reflected 16-bit CRC with polynomial 0x1021. -/
  | crc16n (th : Thr) (f : Form)
  /-- TPZ_INIT (R289): TPZ_INIT clears the Toeplitz accumulator and the hash position. -/
  | tpzInit (th : Thr) (f : Form)
  /-- TPZ (R289): TPZ XORs the Toeplitz function of 32 input bits with the instance key into the accumulator. -/
  | tpz (th : Thr) (f : Form)
  /-- TPZ_SYM (R289): TPZ_SYM hashes 32 input bits with the fixed symmetric key. -/
  | tpzSym (th : Thr) (f : Form)
  /-- TPZ_H (R289): TPZ_H hashes 16 input bits with the instance key. -/
  | tpzH (th : Thr) (f : Form)
  /-- TPZ_H_SYM (R289): TPZ_H_SYM hashes 16 input bits with the fixed key. -/
  | tpzHSym (th : Thr) (f : Form)
  /-- ADD16 (R289): ADD16 adds a half-word in ones'-complement arithmetic. -/
  | add16 (th : Thr) (f : Form)
  /-- ADD32 (R289): ADD32 adds both half-words of a word in ones'-complement arithmetic. -/
  | add32 (th : Thr) (f : Form)
  /-- SUB16 (R289): SUB16 subtracts a half-word in ones'-complement arithmetic. -/
  | sub16 (th : Thr) (f : Form)
  /-- FIN (R289): FIN complements the 16-bit checksum and sets Z when it is 0. -/
  | fin (th : Thr) (f : Form)
  /-- BFSET (R289): BFSET sets the bit-field position and width of the thread. -/
  | bfset (th : Thr) (f : Form)
  /-- EXTU (R289): EXTU extracts a bit field zero-extended. -/
  | extu (th : Thr) (f : Form)
  /-- EXTS (R289): EXTS extracts a bit field sign-extended. -/
  | exts (th : Thr) (f : Form)
  /-- INS (R289): INS inserts a bit field into a register. -/
  | ins (th : Thr) (f : Form)
  /-- TAGOF (R256): TAGOF returns the tag code of a register. -/
  | tagof (th : Thr) (f : Form)
  /-- TAGSET (R256): TAGSET re-tags a register as INT, BOOL, HOFS or TIME. -/
  | tagset (th : Thr) (f : Form)
  /-- MFS (R216): MFS reads a special register, moving the handle out of PKT. -/
  | mfs (th : Thr) (f : Form)
  /-- MTS (R257): MTS writes a special register, moving the thread's own packet handle back into PKT. -/
  | mts (th : Thr) (f : Form)
  /-- TBLH (R260): TBLH returns a handle for a table the instance owns, or raises ISOLATION. -/
  | tblh (th : Thr) (f : Form)
  /-- RDTIME (R258): RDTIME returns the FAB nanosecond count, the PTP nanoseconds with a seconds latch, or the latched seconds. -/
  | rdtime (th : Thr) (f : Form)
  /-- RAND (R259): RAND returns 32 random bits from the core's generator. -/
  | rand (th : Thr) (f : Form)
  /-- SETT (R262): SETT writes a g-register, the PC or BASE_PRIO of a BOUND or HELD supervised thread. -/
  | sett (th : Thr) (f : Form)
  /-- RELT (R197): RELT moves a BOUND supervised thread to READY. -/
  | relt (th : Thr) (f : Form)
  /-- FDISP_RESUME (R204): FDISP RESUME executes a HELD thread's faulting instruction again. -/
  | fdispResume (th : Thr) (f : Form)
  /-- FDISP_SKIP (R204): FDISP SKIP continues a HELD thread after its faulting instruction as if it committed with no effect. -/
  | fdispSkip (th : Thr) (f : Form)
  /-- FDISP_DROP (R204): FDISP DROP drops the HELD thread's packet or item and restarts the thread. -/
  | fdispDrop (th : Thr) (f : Form)
  /-- FRCREL (R325): FRCREL force-releases a lock of the instance, giving the next grant FORCE_RELEASED and the former holder FORCED. -/
  | frcrel (th : Thr) (f : Form)
  /-- GETT (R263): GETT reads an item of a BOUND or HELD supervised thread without duplicating a handle. -/
  | gett (th : Thr) (f : Form)
  /-- THRST (R264): THRST returns the state word of a thread of the instance. -/
  | thrst (th : Thr) (f : Form)
  /-- EVQLEN (R261): EVQLEN returns the number of records waiting in the thread's event queue. -/
  | evqlen (th : Thr) (f : Form)
  /-- TRIG (R264): TRIG requests a Primrose trigger with a reason and data word. -/
  | trig (th : Thr) (f : Form)
  /-- POSYCAP (R264): POSYCAP returns the current capacity of a posy of the instance. -/
  | posycap (th : Thr) (f : Form)
  /-- ASSERT (R288): ASSERT raises ASSERT_FAIL when its register is 0, and may request a journal trigger. -/
  | assert (th : Thr) (f : Form)
  /-- JMARK (R288): JMARK writes a marker with a data word to the Primrose journal. -/
  | jmark (th : Thr) (f : Form)
  /-- BREAK (R208): BREAK stops the thread under a debugger session, or raises BREAK. -/
  | breakOp (th : Thr) (f : Form)
  /-- CRY_KEY_INSTALL (R318): INSTALL in CPX_KEYCMD installs a staged AES key into an instance's key slot. -/
  | cryKeyInstall (r : Req) (i : Fin 32) (slot : Fin 128) (big : Bool)
  /-- CRY_KEY_DELETE (R318): DELETE in CPX_KEYCMD zeroes an instance's key slot. -/
  | cryKeyDelete (r : Req) (i : Fin 32) (slot : Fin 128)
  /-- TBL_INSERT (R357): A host or steward INSERT places a key in the named replicas of a table. -/
  | tblInsert (r : Req) (t : Fin 256) (pipes : Fin 16)
  /-- TBL_UPDATE (R359): A host or steward UPDATE replaces a present key's result. -/
  | tblUpdate (r : Req) (t : Fin 256) (pipes : Fin 16)
  /-- TBL_DELETE (R359): A host or steward DELETE invalidates a present key. -/
  | tblDelete (r : Req) (t : Fin 256) (pipes : Fin 16)
  /-- TBL_LOOKUP (R355): A host or steward LOOKUP returns a key's result word. -/
  | tblLookup (r : Req) (t : Fin 256) (pipes : Fin 16)
  /-- TBL_HITREAD (R365): A host or steward HITREAD returns a key's hit bit and clears it when CLR is set. -/
  | tblHitread (r : Req) (t : Fin 256) (pipes : Fin 16) (clr : Bool)
  /-- AM_WRITE (R361): AM_WRITE writes an associative entry's value, mask and result and sets VALID. -/
  | amWrite (r : Req) (t : Fin 256) (pipes : Fin 16)
  /-- AM_INVAL (R361): AM_INVAL clears VALID of an associative entry. -/
  | amInval (r : Req) (t : Fin 256) (pipes : Fin 16)
  /-- AM_READ (R361): AM_READ returns an associative entry's value, mask, result and VALID. -/
  | amRead (r : Req) (t : Fin 256) (pipes : Fin 16)
  /-- AGE_SWEEP_START (R366): Every AGE_PERIOD ms the sweeper starts a sweep of a table or replica. -/
  | ageSweepStart (t : Fin 255) (pipe : Fin 4)
  /-- SWEEP_VISIT (R366): A sweep visits one bucket, clearing HIT, setting STALE or removing stale learning entries with AGED. -/
  | sweepVisit (t : Fin 255) (pipe : Fin 4)
  /-- LEARN_FILTER_EXPIRE (R364): A learn-filter entry is removed WINDOW_US after its creation. -/
  | learnFilterExpire (pipe : Fin 4)
  /-- LEARN_QPOP (R367): A read of LRN_QPOP copies the oldest message of the selected host-consumed learn queue and advances CONS. -/
  | learnQpop (r : Req)
  /-- TM_ENQUEUE (R382): A released packet is judged against instance and queue quotas and WRED, and appended to its queue or dropped. -/
  | tmEnqueue
  /-- PORT_OPPORTUNITY (R376): At a port's transmit opportunity the traffic manager selects a frame by class, committed and excess scheduling, dequeues it and charges its path. -/
  | portOpportunity (n : Fin 128)
  /-- SHAPER_ELIGIBLE (R379): A shaper entered on the calendar becomes eligible at the calendar-slot boundary at or after its due time. -/
  | shaperEligible (kind : Fin 8) (k : Fin 65536)
  /-- TM_COMMIT (R381): At a calendar-slot boundary every shadowed TM field and QHIE change commits, with shapers refreshed and clamped. -/
  | tmCommit
  /-- TM_FLUSH (R384): FLUSH drops every packet queued under a port with TM_FLUSH. -/
  | tmFlush (r : Req) (n : Fin 128)
  /-- SPILL_WRITE_DONE (R386): A spilled packet's DRAM write completes and its on-chip cells are freed. -/
  | spillWriteDone (q : Fin 65536)
  /-- SPILL_READBACK (R387): The traffic manager reads back spilled packets of a queue to keep its on-chip head filled. -/
  | spillReadback (q : Fin 65536)
  /-- SPILL_READ_DONE (R387): A spill readback completes and the packet becomes sendable. -/
  | spillReadDone (q : Fin 65536)
  /-- GATE_COMMIT (R391): GATE_COMMIT sets PENDING and computes the takeover time of the admin gate list. -/
  | gateCommit (r : Req) (n : Fin 64)
  /-- GATE_CANCEL (R390): GATE_CANCEL clears PENDING and the running list continues. -/
  | gateCancel (r : Req) (n : Fin 64)
  /-- GATE_OFF (R390): GATE_OFF stops the running list at once and opens every gate. -/
  | gateOff (r : Req) (n : Fin 64)
  /-- GATE_TAKEOVER (R391): At the takeover time the committed list replaces the running one. -/
  | gateTakeover (n : Fin 64)
  /-- GATE_CHANGE (R389): A gate-list entry's interval ends and the next entry's gate states take effect. -/
  | gateChange (n : Fin 64)
  /-- GCL_WRITE (R390): WRITE in TM_GCLCMD writes an entry of the admin gate list. -/
  | gclWrite (r : Req)
  /-- GCL_READ (R390): READ in TM_GCLCMD reads an entry of the admin or running gate list. -/
  | gclRead (r : Req) (running : Bool)
  /-- DRAM_REQUEST (R405): A requester port's line request arrives at the controller and is checked against its region. -/
  | dramRequest (port : Fin 10) (inst : Fin 32) (addr : Nat) (len : Fin 65536) (data : Option (List Byte))
  /-- DRAM_COMMAND_ISSUE (R407): A subchannel issues the next command of the chosen request, refresh, RFM or calibration. -/
  | dramCommandIssue (sc : Fin 16) (late : List Nat) (bad : Bool)
  /-- DRAM_REQUEST_COMPLETE (R408): A read returns its data to its port in issue order, or a write is performed. -/
  | dramRequestComplete (sc : Fin 16) (seq : Nat) (err : Fin 4)
  /-- REFRESH_DUE (R409): A rank's refresh interval expires and a refresh becomes due. -/
  | refreshDue (sc : Fin 16) (rank : Fin 2)
  /-- MR4_POLL (R409): Every 16 ms the controller reads MR4 of each rank and sets tREFI. -/
  | mr4Poll (sc : Fin 16) (rank : Fin 2) (fast : Bool)
  /-- RH_WINDOW_END (R411): At a refresh-window boundary the row trackers' counts are cleared and expired throttles end. -/
  | rhWindowEnd (sc : Fin 16)
  /-- PAGE_IDLE_CLOSE (R406): A bank whose open row is idle for IDLE_CLOSE_NS is precharged. -/
  | pageIdleClose (sc : Fin 16) (bank : Fin 64)
  /-- ZQ_CAL (R416): ZQ calibration and DQS-oscillator readout run in a refresh shadow and may move a write-DQS delay. -/
  | zqCal (sc : Fin 16) (rank : Fin 2) (dev : Fin 32) (drift : Option Bool)
  /-- CENTRING_SLICE (R417): A slice of read and write centring begins on an idle subchannel and holds its requests. -/
  | centringSlice (sc : Fin 16) (use : Fin 101)
  /-- FORCED_SLICE (R418): A centring deferred DEFER_MS runs its remaining slices as forced slices. -/
  | forcedSlice (sc : Fin 16)
  /-- CA_PARITY_ALERT (R412): ALERT_n sampled low stops a subchannel's commands and marks the window's reads for discard. -/
  | caParityAlert (sc : Fin 16) (n : Fin 33)
  /-- CA_REPLAY (R412): After ALERT_n returns high the subchannel precharges and replays the window's commands. -/
  | caReplay (sc : Fin 16)
  /-- CA_RETRAIN_DONE (R413): CA retraining after a third alert completes, or fails and marks the subchannel FAILED. -/
  | caRetrainDone (sc : Fin 16) (ok : Bool)
  /-- DMC_FREQ (R419): FREQ changes a channel between its operating speed and 3200 MT/s through self-refresh. -/
  | dmcFreq (r : Req) (ch : Fin 8)
  /-- DMC_ENTER2 (R420): ENTER2 places a channel in self-refresh with its clock and PHY stopped. -/
  | dmcEnter2 (r : Req) (ch : Fin 8)
  /-- DMC_EXIT (R420): EXIT, or a request to a stopped channel, relocks its clock and leaves self-refresh. -/
  | dmcExit (r : Req) (ch : Fin 8)
  /-- LEVEL_CHANGE_DONE (R419): A channel's level change completes and held requests are served first. -/
  | levelChangeDone (ch : Fin 8)
  /-- DRAM_TRAINING_DONE (R400): Cold-boot training completes, identifies the configuration and sets DMC_CAPSTS, or fails with DRAM_TRAIN. -/
  | dramTrainingDone (pop : Fin 256) (code : Fin 4) (same : Bool) (bad : Option (Fin 16)) (imt mmt : Nat)
  /-- DOORBELL (R426): A write of HIF_DB sets the host-owned index of a ring, or is rejected when it would overfill it. -/
  | doorbell (r : Req) (f : Fin 33) (k : Fin 32) (v : Fin 131072)
  /-- RING_ENABLE (R426): Setting a ring's VALID sets both indices to 0 and clears ERR. -/
  | ringEnable (r : Req) (f : Fin 33) (k : Fin 32) (v : Word)
  /-- TX_FETCH (R427): The device fetches a TX descriptor and its frame into host cells, advances CONS and injects the frame at the parser. -/
  | txFetch (d2 d3 : Word) (frame : List Byte)
  /-- HOST_RX_DELIVER (R428): A frame for a host port is written to an RXB buffer and its completion to the RXC ring. -/
  | hostRxDeliver (f : Fin 33) (d : Word × Word × Word × Word)
  /-- DMA_ERROR (R430): A DMA that ends in an error stops its ring with DMA_ERR and logs AER. -/
  | dmaError (f : Fin 33) (k : Fin 32) (kind : Fin 4)
  /-- INTERRUPT_RAISE (R430): A ring raises its MSI-X vector after a writeback, no more often than once per ITR_US. -/
  | interruptRaise (f : Fin 33) (k : Fin 32)
  /-- CREATE_DONE (R433): The zeroing of a created instance completes and it enters RESET. -/
  | createDone (i : Fin 32)
  /-- INSTANCE_RESET_DONE (R436): An instance's reset sequence completes its clearing and the instance enters RESET. -/
  | instanceResetDone (i : Fin 32)
  /-- FABORT_DONE (R439): A Function Abort completes and INS_FASTS reports its result. -/
  | fabortDone (r : Req)
  /-- FLR (R440): A function-level reset resets the function's PCIe state and its instance, then starts it when AUTOSTART is 1. -/
  | flr (f : Fin 33)
  /-- VF_DISABLE (R441): Clearing VF Enable or lowering NumVFs resets every running instance whose VF ceases to exist. -/
  | vfDisable (en : Bool) (n : Fin 33)
  /-- PCIE_RESET (R505): PCIE_PERST_N low resets the PCIe controller and HIF, ending every ring. -/
  | pcieReset
  /-- PCIE_LINK_UP (R423): PCIe link training completes and the link comes up. -/
  | pcieLinkUp (speed : Fin 5) (lanesLog : Fin 5)
  /-- MB_LOAD (R532): LOAD in STW_MBCMD copies a partial image from host memory into the steward's staging area. -/
  | mbLoad (r : Req) (image : List Byte)
  /-- IMAGE_CHECK (R82): The loader judges a staged image through its ordered checks and rejects it or begins its commits. -/
  | imageCheck (ok : Bool) (fa fb : Option (List Byte × List Byte))
  /-- POSY_RESHAPE_POINT (R87): A moved core whose worker threads all wait in GETW with no context joins its new posy. -/
  | posyReshapePoint (c : Fin 128)
  /-- PGRF_COMMIT (R140): Once every instance has a FREE slot and a graph slot is free, a PGRF section commits a new epoch in every instance. -/
  | pgrfCommit
  /-- PGRF_WAIT_TIMEOUT (R140): A PGRF load whose conditions do not hold within 100 ms ends with IMG_LIVE. -/
  | pgrfWaitTimeout
  /-- LOAD_COMPLETE (R86): The last section commits, the running serial becomes IMAGE_SERIAL and DONE reports IMG_OK. -/
  | loadComplete
  /-- MB_MSG (R531): MSG in STW_MBCMD carries 256 bytes to steward firmware. -/
  | mbMsg (r : Req)
  /-- STEWARD_REPLY (R531): Steward firmware replies to a MSG and DONE is set. -/
  | stewardReply (res : Byte) (reply : List Byte)
  /-- ATTEST_DONE (R459): The steward signs a report with the next leaf, reserving a new block in MRAM when needed. -/
  | attestDone (ok : Bool)
  /-- FUSE_PROGRAM_DONE (R446): A fuse programming operation completes. -/
  | fuseProgramDone (ok : Bool)
  /-- SCAN_ENTRY (R455): Entry to internal scan stops traffic and zeroes every secret memory. -/
  | scanEntry (r : Req)
  /-- SCRUB_VISIT (R474): The scrubber reads and rewrites an SRAM word in a free cycle of its bank. -/
  | scrubVisit (m : Fin 16) (a : Nat) (bad : Fin 3)
  /-- AM_CHECK (R475): The checker compares an associative entry with its shadow and repairs it. -/
  | amCheck (e : Fin 262144) (bad : Fin 3)
  /-- REEXEC_READY (R478): An item whose execution ended in a hardware fault re-enters its ready list from its ingress snapshot, or is dropped with DROP_REEXEC. -/
  | reexecReady (e : Fin 16384)
  /-- ERROR_REPORT (R484): An error reaches the error collector, filling or updating its source's record and notifying. -/
  | errorReport (src : Fin 18) (kind : Fin 256) (sev : Fin 4) (unit : Fin 16777216) (loc : BitVec 64) (inst : Option (Fin 32))
  /-- ERC_ACK (R485): ERC_ACK clears a source's pending bit and record. -/
  | ercAck (r : Req) (j : Fin 2) (v : Word)
  /-- FAULT_LOG_APPEND (R486): The steward appends a record of severity 1 or more to the MRAM fault log. -/
  | faultLogAppend
  /-- MRAM_ROTATE (R489): A worn MRAM block is copied to a spare and the block map updated. -/
  | mramRotate (b : Fin 2048) (ok : Bool)
  /-- TELEMETRY_SNAPSHOT (R490): Every second the hottest sensor's bin of MRM_THIST is incremented. -/
  | telemetrySnapshot
  /-- THIST_WRITE (R490): Once an hour the histogram and lifetime counters are written to MRAM. -/
  | thistWrite
  /-- JNL_START (R491): START moves the journal from IDLE to RUN and writes a START record. -/
  | jnlStart (r : Req)
  /-- JNL_STOP (R491): STOP returns the journal to IDLE. -/
  | jnlStop (r : Req)
  /-- JNL_TRIGGER (R497): TRIGGER in JNL_CMD requests a host-source journal trigger. -/
  | jnlTrigger (r : Req)
  /-- JNL_REARM (R491): REARM returns a FROZEN journal to IDLE. -/
  | jnlRearm (r : Req)
  /-- TIMEBASE_RECORD (R496): Every 1 ms a TIMEBASE record is written for each pipe. -/
  | timebaseRecord
  /-- JOURNAL_FREEZE (R498): POST_US after a trigger the journal writes FREEZE and enters FROZEN. -/
  | journalFreeze
  /-- RP_START (R500): Replay START begins running a recorded script into the replay instance. -/
  | rpStart (r : Req)
  /-- RP_CONTINUE (R500): CONTINUE resumes a PAUSED replay after the host's table write. -/
  | rpContinue (r : Req)
  /-- RP_STOP (R503): STOP ends a replay. -/
  | rpStop (r : Req)
  /-- REPLAY_INJECT (R500): When the replay instance is empty the engine injects the next recorded frame or item, or pauses or ends. -/
  | replayInject
  /-- COLD_RESET (R505): PORST_N low restarts every block and loses DRAM contents. -/
  | coldReset
  /-- POWER_ON_BOOT (R511): The rise of PORST_N latches straps and runs the boot ROM's trust sequence toward traffic. -/
  | powerOnBoot (straps : Fin 16) (fa fb : Option (List Byte × List Byte))
  /-- WARM_RESET (R512): WRST_N low starts the warm reset sequence. -/
  | warmReset
  /-- RST_WARM (R512): WARM in RST_CMD starts the warm reset sequence. -/
  | rstWarm (r : Req)
  /-- RST_STEWARD (R513): STEWARD in RST_CMD resets the steward. -/
  | rstSteward (r : Req)
  /-- LOCKSTEP_MISMATCH (R37): The two lockstep steward cores disagree, are stopped, and a steward reset starts. -/
  | lockstepMismatch
  /-- STEWARD_RESET (R513): The steward pair stops and its firmware is reloaded from the booting flash. -/
  | stewardReset
  /-- STEWARD_RELOAD_DONE (R513): The reloaded steward starts and held commands execute, or a failed verification takes a warm reset. -/
  | stewardReloadDone (fw : Option (List Byte))
  /-- HB_KICK (R515): KICK in RST_HBKICK keeps the device healthy for KICK_MS. -/
  | hbKick (r : Req)
  /-- KICK_TIMEOUT (R515): No KICK arrives within KICK_MS and the heartbeat outputs stop. -/
  | kickTimeout
  /-- MATE_HB_EDGE (R516): An edge on MATE_HB_IN counts toward MATE_ALIVE. -/
  | mateHbEdge
  /-- MATE_LOST (R516): No MATE_HB_IN edge for 4 µs sets MATE_LOST and may assert ALERT_N. -/
  | mateLost
  /-- THERMAL_SAMPLE (R530): Every 100 µs the sensors sample and the warning, throttle and shutdown thresholds act on the hottest. -/
  | thermalSample (temps : List (BitVec 16))
  /-- RAIL_LOSS (R543): A rail average below its operating minimum causes a cold reset. -/
  | railLoss (aon : Bool)
  /-- PLL_LOSS_OF_LOCK (R518): A PLL loses lock, raising a CLOCK record and a warm reset. -/
  | pllLossOfLock (d : Fin 10)
  /-- GLB_EXPDENY (R528): A write of GLB_EXPDENY refuses later expert-page writes to the named blocks. -/
  | glbExpdeny (r : Req) (v : Word)
  /-- IADATA_READ (R523): A read of GLB_IADATA reads the register at OFFSET as the virtual function's requester, or reports OUTSIDE. -/
  | iadataRead (v : Fin 32)
  /-- IADATA_WRITE (R523): A write of GLB_IADATA writes the register at OFFSET as the virtual function's requester, or reports OUTSIDE. -/
  | iadataWrite (v : Fin 32) (be : BitVec 4) (w : Word)
  /-- LOCAL_FAULT_CLEAR (R98): The receive side regains a fault-free stream, the transmit side stops sending Remote Fault, and the port returns to frames and idles. -/
  | localFaultClear (m : Fin 64)
  /-- VF_ENABLE (R424): Setting VF Enable, or raising NumVFs, brings virtual functions into existence so that their instances can be created and started. -/
  | vfEnable (n : Fin 33)
  /-- CENTRING_SLICE_END (R417): A centring slice ends, and the requests it held are served ahead of every later request in arrival order. -/
  | centringSliceEnd (sc : Fin 16) (last : Bool)
  /-- HB_RESUME (R515): 1 ms after the device becomes healthy again, MATE_HB_OUT and HEALTHY resume toggling. -/
  | hbResume
  /-- TAP_INSTRUCTION (R455): A public IEEE 1149.1 or 1149.6 instruction loaded through the JTAG port acts as EXTEST while the device is held in reset, and as BYPASS otherwise. -/
  | tapInstruction (ir : Fin 4)
  deriving DecidableEq, Repr

end Sys2Proof
end

