-- ==== Sys2Proof/Decode.lean ====
section
/-! DEFINITION. The commands that a word of opcode_table.json spells. The table gives none of its rows any bits: a command arrives as
an access, a frame, a pin event or an event of the device itself. The encoding of the instructions a thread fetches is in
Machine/PetalDec.lean. -/

namespace Sys2Proof

/-- No row of the table has bits, so no word spells a command. -/
def decodeTableWord (nbits w : Nat) : Option Instr :=
  match nbits, w with
  | _, _ => none

end Sys2Proof
end

