-- ==== Sys2Proof/Config.lean ====
section
/-! DEFINITION. What an implementation fixes, and the free values: constants with no body, so that no proof can see a
value of theirs. A meaning applies one to the counter `free` of the state, which it then advances. -/

namespace Sys2Proof.Config

/-- The n-th 32-bit word the device draws where the spec gives no value: the random draws (R259, R382, R454, R457)
and each result the spec leaves undefined. Nothing in Lean can evaluate it. -/
opaque freeWord : Nat → Word

/-- The n-th choice the device makes where the spec gives it a choice and no rule for it. It is always reduced
modulo the number of choices where it is used. -/
opaque pick : Nat → Nat

/-- How far, in nanoseconds, a core's copies of the clocks lie behind their sources; it is reduced to at most 4
(08 R258). -/
opaque clockLag : Nat → Nat

/-- What distinguishes the opaque value of a table handle from its table's number (08 R260). -/
opaque tblMask : Word

/-- What distinguishes the opaque value of a KEY handle from its slot (10 R306). -/
opaque keyMask : Word

/-- The JEDEC speed-bin value of timing word `k` of timing set `set` for a configuration code and a speed code
(15 R422): numbers of JESD79-5, which the spec does not state. -/
opaque timBin : (code speed set k : Nat) → Word

/-- The JESD79-5 minimum of timing word `k` of timing set `set`, each field in its place (15 R422). -/
opaque timMin : (code speed set k : Nat) → Word

/-- Which status a load ends with when the MAGIC of the signing envelope is wrong: the spec names none for it (02 R82, R83). -/
opaque envStatus : Nat

/-- The words of the attestation public key of a RETIRED device, whose key derivation ignores the seed (17 R448): the spec
states none. -/
opaque retiredKey : Nat → Word

end Sys2Proof.Config
end

