-- ==== Sys2Proof/Machine/Bits.lean ====
section
/-! DEFINITION. Bit fields, sign extension and byte order: the helpers every other file of Machine/ uses. Bit 0 is the
least significant bit and a field is written [hi:lo] (R5). -/

namespace Sys2Proof.Machine

/-- The field [hi:lo] of a number (R5). -/
def nbits (n hi lo : Nat) : Nat := n / 2 ^ lo % 2 ^ (hi + 1 - lo)

/-- The field [hi:lo] of a word (R5). -/
def bits (w : Word) (hi lo : Nat) : Nat := nbits w.toNat hi lo

/-- The single bit [n] of a word. -/
def bit (w : Word) (n : Nat) : Bool := w.getLsbD n

/-- The mask of the field [hi:lo]. -/
def fmask (hi lo : Nat) : Word := BitVec.ofNat 32 (2 ^ (hi + 1) - 2 ^ lo)

/-- `w` with the field [hi:lo] replaced by `v`. -/
def setBits (w : Word) (hi lo v : Nat) : Word :=
  (w &&& ~~~(fmask hi lo)) ||| (BitVec.ofNat 32 (v * 2 ^ lo) &&& fmask hi lo)

/-- `w` with bit `n` set to `b`. -/
def setBit (w : Word) (n : Nat) (b : Bool) : Word := setBits w n n (if b then 1 else 0)

/-- A Boolean as the number 0 or 1. -/
def b2n (b : Bool) : Nat := if b then 1 else 0

/-- A Boolean as a word. -/
def b2w (b : Bool) : Word := if b then 1 else 0

/-- The signed value of the low `n` bits of `v`. -/
def sgn (n v : Nat) : Int :=
  if v % 2 ^ n < 2 ^ (n - 1) then ((v % 2 ^ n : Nat) : Int) else ((v % 2 ^ n : Nat) : Int) - ((2 ^ n : Nat) : Int)

/-- A word from a number, wrapping. -/
def w32 (n : Nat) : Word := BitVec.ofNat 32 n

/-- A word from an integer, wrapping. -/
def w32i (i : Int) : Word := BitVec.ofInt 32 i

/-- A byte from a number, wrapping. -/
def by8 (n : Nat) : Byte := BitVec.ofNat 8 n

/-- A counter of `w` bits after `n` more counts: it stays at all ones (R19). -/
def satAdd (w v n : Nat) : Nat := if v + n ≥ 2 ^ w then 2 ^ w - 1 else v + n

/-- The value of bytes in big-endian order (network order, R6, R249). -/
def beVal (l : List Byte) : Nat := l.foldl (fun a b => a * 256 + b.toNat) 0

/-- The value of bytes in little-endian order (R6). -/
def leVal : List Byte → Nat
  | [] => 0
  | b :: t => b.toNat + 256 * leVal t

/-- The `n` low bytes of `v`, most significant first. -/
def beBytes : Nat → Nat → List Byte
  | 0, _ => []
  | n + 1, v => by8 (v / 256 ^ n) :: beBytes n v

/-- The `n` low bytes of `v`, least significant first. -/
def leBytes : Nat → Nat → List Byte
  | 0, _ => []
  | n + 1, v => by8 v :: leBytes n (v / 256)

/-- `n` bytes of a list from position `o`; bytes beyond its end read 0. -/
def sliceB (l : List Byte) (o : Nat) : Nat → List Byte
  | 0 => []
  | n + 1 => (l[o]?).getD 0 :: sliceB l (o + 1) n

/-- The least `k ≥ a` with `p k`, looking at `n` numbers. -/
def findFrom (p : Nat → Bool) (a : Nat) : Nat → Option Nat
  | 0 => none
  | n + 1 => if p a then some a else findFrom p (a + 1) n

/-- Ceiling division. -/
def cdiv (a b : Nat) : Nat := (a + b - 1) / b

/-- The bytes of words, little-endian (R6). -/
def wordBytes (ws : List Word) : List Byte := (ws.map (fun w => leBytes 4 w.toNat)).flatten

/-- Apply `f` to each element in order, threading a state. -/
def foldS {α σ : Type} (l : List α) (f : α → σ → σ) (s : σ) : σ := l.foldl (fun s a => f a s) s

/-- Put a number into a rising list. -/
def insAsc (a : Nat) : List Nat → List Nat
  | [] => [a]
  | b :: t => if a ≤ b then a :: b :: t else b :: insAsc a t

/-- The numbers of a list in rising order. -/
def sortAsc (l : List Nat) : List Nat := l.foldr insAsc []

end Sys2Proof.Machine
end

