-- ==== Sys2Proof/Machine/RegDesc.lean ====
section
/-! DEFINITION. How a register is described: its place in BAR0, its indices, its class and its fields with their access
codes, reset values and legal values (00_scope.md R10 to R16, 01_architecture.md R49). -/

namespace Sys2Proof.Machine

/-- The access codes of R11. -/
inductive Acc where
  | rw | ro | wo | w1c | w1s | rc
  deriving DecidableEq, Repr

/-- The configuration classes of R16; `none` for a register that holds status fields and counters only. -/
inductive RCls where
  | none | s | h | l
  deriving DecidableEq, Repr

/-- One field. `ok` lists the legal ranges of values; an empty list admits every value the bits can hold. -/
structure Fld where
  hi    : Nat
  lo    : Nat
  acc   : Acc
  reset : Nat
  ok    : List (Nat × Nat)
  deriving DecidableEq, Repr

/-- A register, or an array of registers: `dims` gives the count and the stride of each index, outermost first.
`perReq` is a register held separately for each requester (R520). `pfOnly` is a register that only the physical
function and the steward reach, every other requester being refused with CAUSE REQUESTER (R526). `stwOnly` is one
that only the steward writes. -/
structure RegDesc where
  name    : String
  off     : Nat
  dims    : List (Nat × Nat)
  cls     : RCls
  fields  : List Fld
  perReq  : Bool := false
  pfOnly  : Bool := false
  stwOnly : Bool := false
  deriving DecidableEq, Repr

/-- A field any value of which is legal. -/
def rw (hi lo : Nat) (reset : Nat := 0) : Fld := ⟨hi, lo, .rw, reset, []⟩

/-- A field with one legal range. -/
def rwr (hi lo reset a b : Nat) : Fld := ⟨hi, lo, .rw, reset, [(a, b)]⟩

/-- A field with several legal ranges. -/
def rws (hi lo reset : Nat) (ok : List (Nat × Nat)) : Fld := ⟨hi, lo, .rw, reset, ok⟩

/-- A read-only field. -/
def ro (hi lo : Nat) (reset : Nat := 0) : Fld := ⟨hi, lo, .ro, reset, []⟩

/-- A write-only field. -/
def wo (hi lo : Nat) : Fld := ⟨hi, lo, .wo, 0, []⟩

/-- A field of write-1-to-clear bits. -/
def w1c (hi lo : Nat) : Fld := ⟨hi, lo, .w1c, 0, []⟩

/-- A field of write-1-to-set or command bits. -/
def w1s (hi lo : Nat) : Fld := ⟨hi, lo, .w1s, 0, []⟩

/-- A 32-bit counter that a read clears. -/
def rc32 : Fld := ⟨31, 0, .rc, 0, []⟩

/-- A whole read-only word. -/
def ro32 : Fld := ro 31 0

/-- A whole read-write word. -/
def rw32 (reset : Nat := 0) : Fld := rw 31 0 reset

/-- A register row. -/
def reg (name : String) (off : Nat) (dims : List (Nat × Nat)) (cls : RCls) (fields : List Fld) : RegDesc :=
  { name := name, off := off, dims := dims, cls := cls, fields := fields }

/-- A register row held separately for each requester (R520). -/
def regR (name : String) (off : Nat) (dims : List (Nat × Nat)) (cls : RCls) (fields : List Fld) : RegDesc :=
  { name := name, off := off, dims := dims, cls := cls, fields := fields, perReq := true }

/-- A register row that only the physical function and the steward reach. -/
def regP (name : String) (off : Nat) (dims : List (Nat × Nat)) (cls : RCls) (fields : List Fld) : RegDesc :=
  { name := name, off := off, dims := dims, cls := cls, fields := fields, pfOnly := true }

/-- A register row that only the steward writes. -/
def regS (name : String) (off : Nat) (dims : List (Nat × Nat)) (cls : RCls) (fields : List Fld) : RegDesc :=
  { name := name, off := off, dims := dims, cls := cls, fields := fields, stwOnly := true }

/-- Whether `d` is reached by an index of `dims` from offset 0; every index is tried by its stride. -/
def inDims : List (Nat × Nat) → Nat → Bool
  | [], d => d == 0
  | (n, st) :: t, d =>
    if t.isEmpty then decide (d % st = 0) && decide (d / st < n)
    else
      -- the innermost indices lie within one stride of this one, or this index is the finer one
      (decide (d / st < n) && inDims t (d % st)) ||
      (match t with
        | [(n2, st2)] => decide (st2 > st) && decide (d / st2 < n2) && decide (d % st2 % st = 0) &&
            decide (d % st2 / st < n)
        | _ => false)

/-- Whether a register row holds a BAR0 offset. -/
def RegDesc.at (r : RegDesc) (off : Nat) : Bool := decide (r.off ≤ off) && inDims r.dims (off - r.off)

/-- The row of a table that holds an offset. -/
def findReg (t : List RegDesc) (off : Nat) : Option RegDesc := t.find? (fun r => r.at off)

/-- The word a register holds after the reset of its block (R10). -/
def RegDesc.resetWord (r : RegDesc) : Word := r.fields.foldl (fun w f => setBits w f.hi f.lo f.reset) 0

/-- Whether a value is legal in a field. -/
def Fld.legal (f : Fld) (v : Nat) : Bool :=
  f.ok.isEmpty || f.ok.any (fun r => decide (r.1 ≤ v) && decide (v ≤ r.2))

/-- Whether a written word places a reserved value in no writable field (R15). -/
def RegDesc.legal (r : RegDesc) (w : Word) : Bool :=
  r.fields.all (fun f => match f.acc with
    | .rw | .wo | .w1s => f.legal (bits w f.hi f.lo)
    | _ => true)

/-- The word a register holds after an accepted write (R11): RW and WO fields take the value, W1C bits clear, W1S bits
set, the others keep theirs. -/
def RegDesc.apply (r : RegDesc) (old w : Word) : Word :=
  r.fields.foldl (fun a f =>
    match f.acc with
    | .rw | .wo => setBits a f.hi f.lo (bits w f.hi f.lo)
    | .w1c => setBits a f.hi f.lo (bits (old &&& ~~~w) f.hi f.lo)
    | .w1s => setBits a f.hi f.lo (bits (old ||| w) f.hi f.lo)
    | _ => a) old

/-- The word a read returns (R11, R14): WO fields and reserved bits read 0. -/
def RegDesc.readWord (r : RegDesc) (v : Word) : Word :=
  r.fields.foldl (fun a f => match f.acc with
    | .wo => a
    | _ => setBits a f.hi f.lo (bits v f.hi f.lo)) 0

/-- The word a register holds after a read: RC fields clear (R11). -/
def RegDesc.afterRead (r : RegDesc) (v : Word) : Word :=
  r.fields.foldl (fun a f => match f.acc with
    | .rc => setBits a f.hi f.lo 0
    | _ => a) v

end Sys2Proof.Machine
end

