-- ==== Sys2Proof/Machine/RegsClass.lean ====
section
/-! DEFINITION. The register tables of PRS, CLS, PAT and EGR (04_parse_classify.md R156 to R159). -/

namespace Sys2Proof.Machine

def prsRegs : List RegDesc := [
  reg "PRS_INSTBASIC" 0x0140_0100 [(32, 4)] .l [rwr 1 0 0 0 2],
  reg "PRS_EPOCHCMD" 0x0140_1000 [(32, 0x10)] .l [w1s 31 31, w1s 30 30, rw 15 0],
  reg "PRS_EPOCHRES" 0x0140_1004 [(32, 0x10)] .none [ro 30 30, ro 3 0],
  reg "PRS_EPOCHCUR" 0x0140_1008 [(32, 0x10)] .none [ro 15 0 1],
  reg "PRS_EPOCHSTS" 0x0140_1400 [(32, 0x10), (4, 4)] .none [ro 31 30, ro 29 16, ro 15 0],
  reg "PRS_FLAGCNT" 0x0140_1800 [(32, 0x20), (8, 4)] .none [rc32],
  reg "PRS_FRAGCMD" 0x0140_1C00 [(4, 0x100000)] .l [w1s 0 0],
  reg "PRS_FRAGSTS" 0x0140_1C04 [(4, 0x100000)] .none [ro 13 0],
  reg "PRS_CNT" 0x0140_1D00 [(4, 0x100000), (6, 4)] .none [rc32],
  reg "PRS_INSTACT" 0x0140_8000 [(32, 4)] .l [rw 15 0 0x0889],
  reg "PRS_CTL" 0x0140_8100 [(4, 0x100000)] .l [ro 31 31 1, rwr 7 0 30 1 255]]

def clsRegs : List RegDesc := [
  reg "CLS_DROPCNT" 0x0180_1000 [(32, 0x80), (32, 4)] .none [rc32],
  reg "CLS_ACTSEL" 0x0180_2000 [(4, 0x100000)] .l [rw 12 0],
  reg "CLS_ACTCMD" 0x0180_2004 [(4, 0x100000)] .l [w1s 0 0],
  reg "CLS_ACTDATA" 0x0180_2100 [(4, 0x100000), (32, 4)] .l [rw32],
  reg "CLS_CNT" 0x0180_3000 [(4, 0x100000), (2, 4)] .none [rc32],
  reg "CLS_KEYPROF" 0x0180_8000 [(32, 0x100), (4, 0x40)] .h [rw 31 31, rw 7 0],
  reg "CLS_KEYEXT" 0x0180_8004 [(32, 0x100), (4, 0x40), (8, 4)] .h [rw 31 24, rw 23 22, rw 15 8, rwr 4 0 0 0 16],
  reg "CLS_ACTPART" 0x0180_A000 [(32, 4)] .l [rwr 29 16 0 0 8192, rw 12 0],
  reg "CLS_INSTCFG" 0x0180_A100 [(32, 4)] .h [rw 31 24, rw 18 16, rw 15 0],
  reg "CLS_INSTCFG2" 0x0180_A180 [(32, 4)] .h [rw 31 24, rw 16 0],
  reg "CLS_PCPMAP" 0x0180_A200 [(32, 4)] .h [rw32],
  reg "CLS_DSCPMAP" 0x0180_A300 [(32, 0x10), (4, 4)] .h [rw32],
  reg "CLS_ACTMAP" 0x0181_0000 [(32, 0x1000), (1024, 4)] .h [rw 31 31, rw 12 0],
  reg "CLS_POLCFG" 0x0184_0000 [(4, 0x100000), (32768, 0x10)] .l [rw 31 27],
  reg "CLS_POLCIR" 0x0184_0004 [(4, 0x100000), (32768, 0x10)] .l [rwr 31 0 0 8 400000000],
  reg "CLS_POLPIR" 0x0184_0008 [(4, 0x100000), (32768, 0x10)] .l [rwr 31 0 0 8 400000000],
  reg "CLS_POLBURST" 0x0184_000C [(4, 0x100000), (32768, 0x10)] .l [rw 31 16, rw 15 0],
  reg "CLS_POLSDU" 0x018C_0000 [(4, 0x100000), (32768, 4)] .l [rw 18 18, w1c 17 17, rw 16 16,
    rws 13 0 0 [(0, 0), (64, 9216)]]]

def patRegs : List RegDesc := [
  reg "PAT_CNT" 0x01C0_1000 [(4, 0x20), (6, 4)] .none [rc32],
  reg "PAT_SETCFG" 0x01C0_8000 [(64, 0x10)] .l [rw 31 31, rw 28 24, rwr 12 0 0 1 4096],
  reg "PAT_SETADDR" 0x01C0_8004 [(64, 0x10)] .l [rw32],
  reg "PAT_SETLEN" 0x01C0_8008 [(64, 0x10)] .l [rw32],
  reg "PAT_QCFG" 0x01C0_9000 [(4, 4)] .l [rwr 17 0 65536 9216 196608]]

def egrRegs : List RegDesc := [
  reg "EGR_TMPLSEL" 0x03C0_1000 [] .l [rw 9 0],
  reg "EGR_TMPLCMD" 0x03C0_1004 [] .l [w1s 0 0],
  reg "EGR_TMPLDATA" 0x03C0_1100 [(16, 4)] .l [rw32],
  reg "EGR_TMPLLEN" 0x03C0_1140 [] .l [rwr 6 0 0 1 64],
  reg "EGR_TMPLFIX" 0x03C0_1144 [] .l [rw 31 24, rw 23 16],
  reg "EGR_CNT" 0x03C0_2000 [(32, 0x10), (3, 4)] .none [rc32],
  reg "EGR_TMPLPART" 0x03C0_8000 [(32, 4)] .l [rwr 26 16 0 0 1024, rw 9 0]]

end Sys2Proof.Machine
end

