-- ==== Sys2Proof/Machine/RegsCore.lean ====
section
/-! DEFINITION. The register tables of DSP, ORD, CORE, CPX, LCK and BPM (05_dispatch_order.md R189, R190,
06_cores_threads.md R213, 10_coprocessors.md R317, 11_locks.md R332, 12_buffer_pools.md R348). -/

namespace Sys2Proof.Machine

def dspRegs : List RegDesc := [
  reg "DSP_INSTBASIC" 0x0200_0100 [(32, 4)] .l [rw 0 0],
  reg "DSP_CTXSTS" 0x0200_1000 [(32, 4)] .none [ro 29 16, ro 13 0],
  reg "DSP_WINSTS" 0x0200_1080 [] .none [ro 13 0],
  regR "DSP_HITEM" 0x0200_1100 [(4, 4)] .l [rw32],
  regR "DSP_HCMD" 0x0200_1110 [] .l [rw 12 8, w1s 1 0],
  regR "DSP_HMSGDST" 0x0200_1114 [] .l [rw32],
  reg "DSP_HMSGSLOT" 0x0200_1118 [] .l [rw 1 0],
  regR "DSP_HMSG" 0x0200_1120 [(4, 4)] .l [rw32],
  regR "DSP_HRES" 0x0200_1130 [] .none [ro 31 31, ro 8 8, ro 3 0],
  regR "DSP_HWID" 0x0200_1134 [] .none [ro32],
  reg "DSP_DROPCNT" 0x0200_1400 [(32, 0x40), (16, 4)] .none [rc32],
  reg "DSP_CNT" 0x0200_1C00 [(32, 0x20), (8, 4)] .none [rc32],
  reg "DSP_DLSTS" 0x0200_2000 [(4, 0x10), (4, 4)] .none [ro 14 0],
  reg "DSP_INSTCFG" 0x0200_8000 [(32, 4)] .l [rw 31 31, rw 30 30, rwr 29 16 8192 1 8192, rwr 13 0 256 0 8192],
  reg "DSP_INSTCFG2" 0x0200_8080 [(32, 4)] .l [rw 31 16 1000, rw 15 0 100],
  reg "DSP_SNAPBASE" 0x0200_8100 [(32, 4)] .l [rw 24 0],
  reg "DSP_QDCFG" 0x0200_8400 [(255, 4)] .l [rw 31 31 1, rwr 9 0 10 1 1000],
  reg "DSP_DLCFG" 0x0200_8800 [(4, 0x10), (4, 4)] .h [rwr 3 0 7 0 10]]

def ordRegs : List RegDesc := [
  regR "ORD_QSEL" 0x0240_1000 [] .l [rw 15 0],
  regR "ORD_QSTS" 0x0240_1004 [] .none [ro 31 31, ro 30 28, ro 13 0],
  reg "ORD_CNT" 0x0240_1100 [(32, 0x20), (5, 4)] .none [rc32],
  reg "ORD_TOTAL" 0x0240_1800 [] .none [ro 13 0]]

def coreRegs : List RegDesc := [
  reg "CORE_THRSTS" 0x0280_1000 [(132, 0x20), (8, 4)] .none [ro32],
  reg "CORE_THRPC" 0x0280_3000 [(132, 0x20), (8, 4)] .none [ro 18 0],
  reg "CORE_CORESTS" 0x0280_5000 [(132, 4)] .none [ro32],
  reg "CORE_FLTLOG" 0x0280_5400 [(132, 0x10)] .none [ro 31 20],
  reg "CORE_FLTPC" 0x0280_5404 [(132, 0x10)] .none [ro32],
  reg "CORE_FLTINFO" 0x0280_5408 [(132, 0x10)] .none [ro32],
  reg "CORE_CNT" 0x0280_6000 [(132, 0x20), (8, 4)] .none [rc32],
  regR "CORE_DBGSEL" 0x0280_7800 [] .l [rwr 5 0 0 0 30],
  regR "CORE_DBGCMD" 0x0280_7804 [] .l [w1s 31 31, rwr 30 28 0 1 6, rwr 27 26 0 0 2, rw 25 18, rw 17 15, rw 14 7],
  regR "CORE_DBGDATA" 0x0280_7808 [] .l [rw32],
  regR "CORE_DBGTAG" 0x0280_780C [] .l [rws 3 0 0 [(0, 1), (5, 5), (15, 15)]],
  regR "CORE_DBGSTS" 0x0280_7810 [] .none [ro 31 31, ro 3 0],
  reg "CORE_WDOG" 0x0280_8000 [] .l [rwr 31 16 100 1 65535, rwr 7 0 20 1 255],
  reg "CORE_FLTCFG" 0x0280_8004 [] .l [rwr 15 0 1000 1 65535],
  reg "CORE_RETCFG" 0x0280_8008 [] .l [rwr 31 24 3 1 255, rwr 15 0 1000 1 65535],
  reg "CORE_DBGCFG" 0x0280_800C [] .l [rw 1 1, rw 0 0 1],
  reg "CORE_BKPT" 0x0280_9000 [(132, 0x10), (4, 4)] .l [rw 31 31, rw 18 0]]

def cpxRegs : List RegDesc := [
  reg "CPX_CTXSTS" 0x02C0_1000 [(32, 0x100), (8, 0x20), (8, 4)] .none [ro 31 28, ro 15 8, ro 2 0],
  reg "CPX_CNT" 0x02C0_3000 [(32, 0x80), (8, 0x10), (4, 4)] .none [rc32],
  reg "CPX_ATTSTS" 0x02C0_4000 [(32, 4)] .none [ro 31 31, ro 6 0],
  regR "CPX_KEYSTAGE" 0x02C0_5000 [(8, 4)] .l [wo 31 0],
  regR "CPX_KEYCMD" 0x02C0_5020 [] .l [w1s 31 31, rwr 30 28 0 1 2, rw 24 24, rw 20 16, rw 6 0],
  regR "CPX_KEYSTS" 0x02C0_5024 [] .none [ro 31 31, ro 3 0],
  reg "CPX_HASHKEY" 0x02C0_8000 [(32, 0x40), (10, 4)] .l [rw32 0x6D5A6D5A]]

def lckRegs : List RegDesc := [
  regR "LCK_QSEL" 0x0300_1000 [] .l [rw32],
  regR "LCK_QSTS" 0x0300_1004 [] .none [ro32],
  reg "LCK_CNT" 0x0300_1100 [(32, 0x20), (8, 4)] .none [rc32],
  regS "LCK_SLOCK" 0x0300_1800 [] .l [rw32],
  regS "LCK_SCMD" 0x0300_1804 [] .l [w1s 31 31, rwr 30 28 0 1 3],
  regS "LCK_SSTS" 0x0300_1808 [] .none [ro 31 31, ro 5 4, ro 3 0],
  reg "LCK_PART" 0x0300_8000 [(1, 4)] .l [rwr 26 16 64 0 1024, rw 9 0],
  reg "LCK_PART" 0x0300_8004 [(31, 4)] .l [rwr 26 16 0 0 1024, rw 9 0],
  reg "LCK_SCRPART" 0x0300_8080 [(1, 4)] .l [rwr 25 16 64 0 512, rw 8 0],
  reg "LCK_SCRPART" 0x0300_8084 [(31, 4)] .l [rwr 25 16 0 0 512, rw 8 0],
  reg "LCK_DWIN" 0x0300_8100 [(32, 4)] .l [rw 16 0]]

def bpmRegs : List RegDesc := [
  reg "BPM_POOLSTS" 0x0320_1000 [(16, 4)] .none [ro 31 31, ro 29 29, ro 28 24, ro 20 0],
  reg "BPM_CACHESTS" 0x0320_1100 [(16, 0x10), (4, 4)] .none [ro 6 0],
  reg "BPM_CNT" 0x0320_2000 [(16, 0x20), (8, 4)] .none [rc32],
  reg "BPM_GATECNT" 0x0320_3000 [(32, 0x10), (4, 4)] .none [rc32],
  regP "BPM_POOLCFG" 0x0320_8000 [(16, 0x10)] .l [rw 31 31, rw 30 30, rw 29 29, rwr 23 20 0 0 8, rw 8 8, rw 3 0],
  regP "BPM_POOLBASE" 0x0320_8004 [(16, 0x10)] .l [rw 16 0],
  regP "BPM_RINGBASE" 0x0320_8008 [(16, 0x10)] .l [rw 16 0],
  regP "BPM_POOLCNT" 0x0320_800C [(16, 0x10)] .l [rwr 20 0 1 1 1048576]]

end Sys2Proof.Machine
end

