-- ==== Sys2Proof/Machine/RegsCtl.lean ====
section
/-! DEFINITION. The register tables of GLB, STW, ERC, JNL and MRM (20_register_map.md R526 to R531,
18_resilience_replay.md R502 to R504). A register for which the spec states no reset value resets to 0 (log entry 3). -/

namespace Sys2Proof.Machine

def glbRegs : List RegDesc := [
  reg "GLB_ID" 0x1000 [] .none [⟨31, 16, .ro, 0x4816, []⟩, ⟨15, 8, .ro, 0xB0, []⟩, ⟨7, 0, .ro, 1, []⟩],
  reg "GLB_FEAT" 0x1004 [] .none [ro 21 16, ro 9 9, ro 8 8, ro 2 0],
  regR "GLB_ACCERR" 0x1010 [] .none [w1c 31 31, ro 30 28, ro 25 2],
  regR "GLB_ACCCNT" 0x1014 [] .none [rc32],
  regP "GLB_CFGSUM" 0x1020 [] .none [ro 29 0],
  regP "GLB_EXPSUM" 0x1024 [] .none [ro 29 0],
  regP "GLB_EXPDENY" 0x1028 [] .l [w1s 29 0],
  reg "GLB_TEMP" 0x1100 [(16, 4)] .none [ro 31 31, ro 15 0],
  reg "GLB_TEMPMAX" 0x1140 [] .none [ro 27 24, ro 15 0],
  reg "GLB_THRTSTS" 0x1144 [] .none [ro 31 30],
  reg "GLB_THRTCNT" 0x1148 [] .none [rc32],
  reg "GLB_THERMCFG" 0x8000 [] .l [rw 31 31, rwr 26 24 4 1 7, rwr 23 16 145 100 150, rwr 15 8 140 0 150,
    rwr 3 0 5 1 15]]

def stwRegs : List RegDesc := [
  regP "STW_MBADDR_LO" 0x0048_1000 [] .l [rws 31 0 0 []],
  regP "STW_MBADDR_HI" 0x0048_1004 [] .l [rw32],
  regP "STW_MBLEN" 0x0048_1008 [] .l [rwr 22 0 0 0x48 0x401048],
  regP "STW_MBCMD" 0x0048_100C [] .l [w1s 31 31, rwr 30 28 0 1 2],
  regP "STW_MBSTS" 0x0048_1010 [] .none [ro 31 31, w1c 30 30, ro 29 28, ro 25 24, ro 7 0],
  regP "STW_MBWORD" 0x0048_1014 [] .none [ro32],
  regP "STW_MBSERIAL" 0x0048_1018 [] .none [ro32],
  regP "STW_MBMSG" 0x0048_1100 [(64, 4)] .l [rw32],
  regP "STW_MBREPLY" 0x0048_1200 [(64, 4)] .none [ro32],
  regP "STW_MBCFG" 0x0048_8000 [] .l [rw 31 31, rw 8 0]]

def ercRegs : List RegDesc := [
  reg "ERC_REC" 0x0038_1000 [(64, 0x20), (6, 4)] .none [ro32],
  reg "ERC_PEND" 0x0038_2000 [(2, 4)] .none [ro32],
  reg "ERC_ACK" 0x0038_2010 [(2, 4)] .l [w1s 31 0],
  reg "ERC_TOTAL" 0x0038_2100 [(64, 4)] .none [rc32],
  reg "ERC_CFG" 0x0038_8000 [] .l [rw 25 24 1, rw 8 0],
  reg "ERC_SCRUBCFG" 0x0038_8004 [] .l [rwr 13 0 1000 10 10000]]

def jnlRegs : List RegDesc := [
  reg "JNL_STS" 0x0040_1000 [] .none [ro 31 30],
  reg "JNL_WRPOS" 0x0040_1004 [] .none [ro32],
  reg "JNL_WRPOS_HI" 0x0040_1008 [] .none [ro32],
  reg "JNL_JSEQ" 0x0040_100C [] .none [ro32],
  reg "JNL_TRIGSTS" 0x0040_1010 [] .none [ro 31 31, ro 21 16, ro 3 0],
  reg "JNL_CNT" 0x0040_1100 [(7, 4)] .none [rc32],
  reg "JNL_CMD" 0x0040_1200 [] .l [w1s 3 0],
  reg "JNL_RPCMD" 0x0040_1300 [] .l [w1s 2 0],
  reg "JNL_RPSTS" 0x0040_1304 [] .none [ro 31 29, ro 15 8, ro 2 0],
  reg "JNL_RPJSEQ" 0x0040_1308 [] .none [ro32],
  reg "JNL_RPPC" 0x0040_130C [] .none [ro 18 0],
  reg "JNL_CFG" 0x0040_8000 [] .s [rw 15 0 1000],
  reg "JNL_RINGBASE" 0x0040_8004 [] .s [rw 16 0],
  reg "JNL_RINGSIZE" 0x0040_8008 [] .s [rwr 15 0 16 16 32768],
  reg "JNL_INSTMASK" 0x0040_800C [] .s [rw32],
  reg "JNL_TRIGEN" 0x0040_8010 [] .l [rw 9 8 2, rw 3 0 15],
  reg "JNL_CAPCFG" 0x0040_8014 [] .l [rwr 6 0 100 1 100],
  reg "JNL_CAPFLOW" 0x0040_8020 [(8, 4)] .l [rw 31 31, rw 30 16, rw 15 0],
  reg "JNL_RPCFG" 0x0040_8100 [] .s [rw 28 24, rw 20 16],
  reg "JNL_RPBASE" 0x0040_8104 [] .s [rw32],
  reg "JNL_RPLEN" 0x0040_8108 [] .s [rw32]]

def mrmRegs : List RegDesc := [
  reg "MRM_THIST" 0x0030_1000 [(39, 4)] .none [ro32],
  reg "MRM_LIFE" 0x0030_1100 [(8, 4)] .none [ro32],
  reg "MRM_LOGSTS" 0x0030_1200 [] .none [ro 31 31, ro 13 0],
  regR "MRM_LOGSEL" 0x0030_1204 [] .l [rw 13 0],
  reg "MRM_LOGDATA" 0x0030_1220 [(8, 4)] .none [ro32],
  regR "MRM_TRIGSEL" 0x0030_1300 [] .l [rw 5 0],
  reg "MRM_TRIGDATA" 0x0030_1320 [(8, 4)] .none [ro32],
  reg "MRM_WEARSTS" 0x0030_1400 [] .none [ro 31 16, ro 10 0],
  reg "MRM_WEARCFG" 0x0030_8000 [] .l [rwr 4 0 26 20 28]]

end Sys2Proof.Machine
end

