-- ==== Sys2Proof/Machine/RegsPort.lean ====
section
/-! DEFINITION. The register tables of PRT, MSC, PTP and ING (03_ports.md R121 to R124). -/

namespace Sys2Proof.Machine

def prtRegs : List RegDesc := [
  reg "PRT_PORTBASIC" 0x0080_0100 [(64, 0x10000)] .s [rwr 29 16 1522 64 9216, rw 8 8, rwr 3 0 0 0 10],
  reg "PRT_LANECMD" 0x0080_1000 [(32, 0x20000)] .l [w1s 1 0],
  reg "PRT_LANESTS" 0x0080_1004 [(32, 0x20000)] .none [ro 31 29, w1c 28 28, ro 27 26],
  reg "PRT_EYE" 0x0080_1008 [(32, 0x20000)] .none [ro32],
  reg "PRT_CNT" 0x0080_1100 [(64, 0x10000), (16, 4)] .none [rc32],
  reg "PRT_MACCFG" 0x0080_8000 [(64, 0x10000)] .s [rw 31 31, rwr 27 24 0 0 10, rwr 21 20 0 0 2, rwr 13 0 1522 64 9216],
  reg "PRT_LANECTL" 0x0080_8004 [(32, 0x20000)] .l [rw 31 31, rwr 23 20 0 0 3, rwr 19 16 0 0 6, rw 15 12, rw 11 8]]

def mscRegs : List RegDesc := [
  regR "MSC_KEYSTAGE" 0x00C0_1000 [(12, 4)] .l [wo 31 0],
  regR "MSC_SACMD" 0x00C0_1040 [] .l [w1s 31 31, rwr 30 28 0 1 5, rw 27 22, rw 21 16, rw 13 12],
  regR "MSC_SAPN" 0x00C0_1044 [(2, 4)] .l [rw32],
  regR "MSC_SASTS" 0x00C0_104C [] .none [ro 31 31, ro 3 0],
  regR "MSC_STATS" 0x00C0_1100 [(32, 4)] .none [ro32],
  reg "MSC_INTSTS" 0x00C0_1200 [(64, 4)] .none [w1c 3 0],
  reg "MSC_SCCFG" 0x00C0_8000 [(64, 0x400), (64, 0x10)] .h [rw 31 31, rw 30 30, rwr 29 28 0 0 2, rw 27 27, rw 26 24,
    rwr 23 21 0 0 3, rw 20 20, rwr 17 16 0 0 2],
  reg "MSC_SCI_LO" 0x00C0_8004 [(64, 0x400), (64, 0x10)] .h [rw32],
  reg "MSC_SCI_HI" 0x00C0_8008 [(64, 0x400), (64, 0x10)] .h [rw32],
  reg "MSC_SCWIN" 0x00C0_800C [(64, 0x400), (64, 0x10)] .h [rw32],
  reg "MSC_TXMAP" 0x00C1_8000 [(64, 0x20), (8, 4)] .h [rw 31 31, rw 30 30, rw 26 24, rw 11 0],
  reg "MSC_PORTPOL" 0x00C1_8800 [(64, 4)] .h [rwr 1 0 0 0 1, rwr 3 2 0 0 1],
  reg "MSC_PNTHR" 0x00C1_8900 [] .l [rw32 0xC0000000]]

def ptpRegs : List RegDesc := [
  regR "PTP_TIME_FRAC" 0x00E0_1000 [] .none [ro 15 0],
  regR "PTP_TIME_NS" 0x00E0_1004 [] .none [ro32],
  regR "PTP_TIME_SEC" 0x00E0_1008 [] .none [ro32],
  regR "PTP_TIME_SEC_HI" 0x00E0_100C [] .none [ro 15 0],
  reg "PTP_TSF_TAG" 0x00E0_1100 [(64, 0x10)] .none [rc32],
  reg "PTP_TSF_NS" 0x00E0_1104 [(64, 0x10)] .none [ro32],
  reg "PTP_TSF_SEC" 0x00E0_1108 [(64, 0x10)] .none [ro32],
  reg "PTP_TSF_HI" 0x00E0_110C [(64, 0x10)] .none [ro32],
  reg "PTP_PPSCAP" 0x00E0_1600 [(4, 4)] .none [ro32],
  reg "PTP_FREQ" 0x00E0_8000 [] .l [rw32],
  reg "PTP_SET_NS" 0x00E0_8004 [] .l [rwr 31 0 0 0 999999999],
  reg "PTP_SET_SEC" 0x00E0_8008 [] .l [rw32],
  reg "PTP_SET_SEC_HI" 0x00E0_800C [] .l [rw 15 0],
  reg "PTP_STEP_NS" 0x00E0_8010 [] .l [rws 31 0 0 [(0, 999999999), (3294967297, 4294967295)]],
  reg "PTP_CMD" 0x00E0_8014 [] .l [w1s 1 0],
  reg "PTP_PPSCFG" 0x00E0_8018 [] .l [rw 31 31, rw 30 30, rw 29 29, rwr 19 0 0 1 10000],
  reg "PTP_RXLAT" 0x00E0_8100 [(64, 8)] .l [rw32],
  reg "PTP_TXLAT" 0x00E0_8104 [(64, 8)] .l [rw32]]

def ingRegs : List RegDesc := [
  reg "ING_FCBASIC" 0x0100_0100 [(64, 4)] .l [rwr 31 30 0 0 2, rw 29 27, rw 23 16, rw 11 0],
  reg "ING_WINSTS" 0x0100_1000 [] .none [ro32],
  reg "ING_POOLSTS" 0x0100_1004 [] .none [ro 17 0],
  reg "ING_PQOCC" 0x0100_1100 [(64, 0x20), (8, 4)] .none [ro 31 31, ro 17 0],
  reg "ING_DROPCNT" 0x0100_1900 [(64, 0x20), (8, 4)] .none [rc32],
  reg "ING_HROVF" 0x0100_2100 [(64, 0x20), (8, 4)] .none [rc32],
  reg "ING_PORTCFG" 0x0100_8000 [(64, 4)] .l [rwr 31 30 0 0 2, rw 29 27, rw 23 16],
  reg "ING_PQA" 0x0100_8100 [(64, 0x40), (8, 8)] .l [rw 31 16, rw 15 0 10],
  reg "ING_PQB" 0x0100_8104 [(64, 0x40), (8, 8)] .l [rw 31 24, rwr 17 0 8192 0 196608],
  reg "ING_HOSTRES" 0x0100_9100 [] .l [rwr 17 0 8192 0 196608],
  reg "ING_WINCFG" 0x0100_9104 [] .l [rw 15 0 1000]]

end Sys2Proof.Machine
end

