-- ==== Sys2Proof/Machine/RegsSec.lean ====
section
/-! DEFINITION. The register tables of CLK, RST, FUS, SEC, GOV and DMC (19_reset_boot_mate.md R517, R518,
17_secrecy.md R470 to R472, 15_dram.md R422). -/

namespace Sys2Proof.Machine

def clkRegs : List RegDesc := [
  reg "CLK_PLLSTS" 0x0010_1000 [] .none [ro 9 0],
  reg "CLK_PLLLOSS" 0x0010_1004 [] .none [w1c 9 0],
  reg "CLK_REFSTS" 0x0010_1008 [] .none [ro 2 0],
  reg "CLK_FREQ" 0x0010_1100 [(10, 4)] .none [ro32]]

def rstRegs : List RegDesc := [
  reg "RST_STS" 0x0018_1000 [] .none [ro 31 28, w1c 27 27, ro 19 16, ro 15 0],
  reg "RST_BOOT" 0x0018_1004 [(4, 4)] .none [ro32],
  reg "RST_STRAP" 0x0018_1040 [] .none [ro 3 0],
  regP "RST_CMD" 0x0018_1100 [] .l [w1s 31 31, rwr 30 28 0 1 2],
  regS "RST_HBKICK" 0x0018_1104 [] .l [w1s 0 0],
  reg "RST_HBCFG" 0x0018_8000 [] .l [rw 16 16, rwr 9 0 100 1 1000]]

def fusRegs : List RegDesc := [
  reg "FUS_WORD" 0x0020_1000 [(256, 4)] .none [ro32],
  reg "FUS_LCS" 0x0020_1400 [] .none [ro 31 31, ro 17 16, ro 8 0],
  reg "FUS_ARB" 0x0020_1410 [(4, 4)] .none [ro 6 0],
  reg "FUS_FIELDSTS" 0x0020_1420 [] .none [ro 15 0],
  { regR "FUS_CMD" 0x0020_1500 [] .l [w1s 31 31, rwr 30 28 0 1 1, rw 25 24, rwr 6 0 0 0 64] with pfOnly := true },
  { regR "FUS_STS" 0x0020_1504 [] .none [ro 31 31, ro 3 0] with pfOnly := true }]

def secRegs : List RegDesc := [
  regR "SEC_CMD" 0x0028_1000 [] .l [w1s 31 31, rwr 30 28 0 1 4, rw 8 8, rw 4 0],
  regR "SEC_STS" 0x0028_1004 [] .none [ro 31 31, ro 3 0],
  regR "SEC_CHAL" 0x0028_1010 [(4, 4)] .none [ro32],
  regR "SEC_NONCE" 0x0028_1020 [(8, 4)] .l [rw32],
  regR "SEC_SESS" 0x0028_1040 [] .none [ro 31 31, ro 18 16],
  regR "SEC_SESSMASK" 0x0028_1044 [] .none [ro32],
  reg "SEC_ATTSTS" 0x0028_1048 [] .none [ro 31 31, ro 20 0],
  reg "SEC_DBGHIST" 0x0028_104C [] .none [ro 2 0],
  reg "SEC_PUBKEY" 0x0028_1080 [(15, 4)] .none [ro32],
  regR "SEC_TOKDATA" 0x0028_2000 [(1072, 4)] .l [wo 31 0],
  regR "SEC_REPORT" 0x0028_4000 [(886, 4)] .none [ro32]]

def govRegs : List RegDesc := [
  reg "GOV_PORTSTS" 0x03D0_1000 [(64, 4)] .none [ro 31 29, ro 15 0],
  reg "GOV_SUM" 0x03D0_1400 [] .none [ro 31 29, ro 6 0],
  reg "GOV_LIMIT" 0x03D0_2000 [(64, 0x20), (8, 4)] .none [ro32],
  reg "GOV_CNT" 0x03D0_3000 [(64, 0x20), (5, 4)] .none [rc32],
  reg "GOV_PFX" 0x03D0_4000 [(64, 8)] .none [ro 31 31, ro 27 16, ro 15 0],
  reg "GOV_PFX_LO" 0x03D0_4004 [(64, 8)] .none [ro32]]

def dmcRegs : List RegDesc := [
  reg "DMC_TIMBASIC" 0x03E0_0100 [(8, 4)] .h [rwr 1 0 2 0 2],
  reg "DMC_CHSTS" 0x03E0_1000 [(8, 4)] .none [ro 31 28, ro 25 24, ro 20 20, ro 3 0],
  reg "DMC_CAPSTS" 0x03E0_1040 [] .none [ro 17 0],
  reg "DMC_CNT" 0x03E0_1100 [(16, 0x40), (12, 4)] .none [rc32],
  reg "DMC_PORTCNT" 0x03E0_1800 [(10, 0x20), (4, 4)] .none [rc32],
  reg "DMC_DENYCNT" 0x03E0_1C00 [(32, 4)] .none [rc32],
  reg "DMC_RHLAST" 0x03E0_2000 [(16, 4)] .none [ro 31 31, ro 24 16, ro 12 8, ro 7 7],
  reg "DMC_ERRADDR" 0x03E0_2100 [(16, 8)] .none [ro32],
  reg "DMC_ERRADDR_HI" 0x03E0_2104 [(16, 8)] .none [ro 4 0],
  reg "DMC_PWRCMD" 0x03E0_3000 [(8, 4)] .l [w1s 2 0],
  reg "DMC_QOS" 0x03E0_8000 [(1, 4)] .l [rwr 15 0 4000 2000 65535],
  reg "DMC_QOS" 0x03E0_8004 [(4, 4)] .l [rwr 15 0 2000 2000 65535],
  reg "DMC_QOS" 0x03E0_8014 [(2, 4)] .l [rwr 15 0 4000 2000 65535],
  reg "DMC_QOS" 0x03E0_801C [(3, 4)] .l [rwr 15 0 8000 2000 65535],
  reg "DMC_PAGECFG" 0x03E0_8040 [] .l [rwr 15 0 120 0 10000],
  reg "DMC_RHCFG" 0x03E0_8044 [] .l [rwr 31 16 4096 256 65535, rwr 15 0 8000 100 65535],
  reg "DMC_CACFG" 0x03E0_8048 [] .s [rwr 4 0 24 8 31],
  reg "DMC_CALCFG" 0x03E0_804C [] .l [rwr 31 16 100 10 65535, rwr 15 10 10 1 63, rw 9 9, rwr 8 4 20 20 31, rwr 3 0 8 1 15],
  reg "DMC_TIM" 0x03E0_9000 [(8, 0x100), (2, 0x40), (7, 4)] .h [rw32],
  reg "DMC_TIM" 0x03E0_901C [(8, 0x100), (2, 0x40)] .h [rw 7 0]]

end Sys2Proof.Machine
end

