-- ==== Sys2Proof/Machine/RegsTbl.lean ====
section
/-! DEFINITION. The register tables of TBL and LRN (13_tables_learning.md R371, R372). -/

namespace Sys2Proof.Machine

def tblRegs : List RegDesc := [
  regR "TBL_CMD" 0x0340_1000 [] .l [w1s 31 31, rwr 30 27 0 1 8, rw 26 26, rw 23 20, rwr 7 0 0 0 254],
  regR "TBL_STS" 0x0340_1004 [] .none [ro 31 31, ro 5 5, ro 4 4, ro 3 0],
  regR "TBL_PSTS" 0x0340_1008 [] .none [ro 15 0],
  regR "TBL_INDEX" 0x0340_100C [] .l [rw 17 0],
  regR "TBL_RES" 0x0340_1010 [(2, 4)] .l [rw32],
  regR "TBL_KEY" 0x0340_1020 [(10, 4)] .l [rw32],
  regR "TBL_MASK" 0x0340_1060 [(10, 4)] .l [rw32],
  reg "TBL_CNT" 0x0340_2000 [(255, 0x20), (8, 4)] .none [rc32],
  reg "TBL_USE" 0x0340_4000 [(255, 0x10), (4, 4)] .none [ro 20 0],
  reg "TBL_DENYCNT" 0x0340_5000 [(32, 4)] .none [rc32],
  reg "TBL_AGECFG" 0x0340_8000 [(255, 4)] .h [rw 31 31, rwr 19 0 100000 1 1000000]]

def lrnRegs : List RegDesc := [
  reg "LRN_QSTS" 0x0380_1000 [(32, 0x10), (4, 4)] .none [ro 31 31, ro 16 0],
  regR "LRN_QSEL" 0x0380_1400 [] .l [rw 7 3, rw 1 0],
  regR "LRN_QPOP" 0x0380_1404 [] .none [⟨31, 29, .rc, 0, []⟩, ⟨16, 0, .rc, 0, []⟩],
  regR "LRN_QMSG" 0x0380_1410 [(4, 4)] .none [ro32],
  reg "LRN_CNT" 0x0380_2000 [(32, 0x80), (4, 0x20), (8, 4)] .none [rc32],
  reg "LRN_FILTSTS" 0x0380_3000 [(4, 4)] .none [ro 12 0],
  reg "LRN_INSTCFG" 0x0380_8000 [(32, 4)] .l [rw 31 31, rw 30 30, rw 19 16],
  reg "LRN_QCFG" 0x0380_8100 [(32, 0x10), (4, 4)] .l [rw 31 31, rw 30 30, rwr 29 25 10 6 16],
  reg "LRN_QBASE" 0x0380_8400 [(32, 0x10), (4, 4)] .l [rw 24 0],
  reg "LRN_CFG" 0x0380_8800 [] .l [rwr 15 0 1000 1 65535]]

end Sys2Proof.Machine
end

