-- ==== Sys2Proof/Machine/RegsTm.lean ====
section
/-! DEFINITION. The register tables of TM, HIF and INS (14_traffic_manager.md R397, 16_instances.md R442, R443). -/

namespace Sys2Proof.Machine

/-- A rate field of 14 R378. -/
def rateF : Fld := rwr 25 0 0 0 50000000

/-- A shaper burst word of 14 R378. -/
def burstFs : List Fld := [rwr 31 16 150 1 65535, rwr 15 0 150 1 65535]

def tmRegs : List RegDesc := [
  reg "TM_PORTBASIC" 0x03A0_0100 [(97, 4)] .h [rwr 18 0 0 0 400000],
  reg "TM_PORTBASIC" 0x03A0_02E0 [(3, 4)] .h [rwr 18 0 0 0 400000],
  reg "TM_DROPCNT" 0x03A0_1400 [(32, 0x40), (16, 4)] .none [rc32],
  reg "TM_INSTCNT" 0x03A0_1C00 [(32, 0x20), (8, 4)] .none [rc32],
  reg "TM_PORTCNT" 0x03A0_2000 [(97, 0x20), (6, 4)] .none [rc32],
  reg "TM_PORTCNT" 0x03A0_2F00 [(3, 0x20), (6, 4)] .none [rc32],
  reg "TM_GATESTS" 0x03A0_3000 [(64, 4)] .none [ro 31 31, w1c 30 30, ro 29 28, ro 7 0],
  regR "TM_QSEL" 0x03A0_4000 [] .l [rw 15 0],
  regR "TM_QSTS" 0x03A0_4004 [] .none [ro 31 29, ro 19 0],
  regR "TM_GCLSEL" 0x03A0_4100 [] .l [rw 21 16, rw 9 0],
  regR "TM_GCLLO" 0x03A0_4104 [] .l [rw 7 0],
  regR "TM_GCLHI" 0x03A0_4108 [] .l [rwr 29 0 0 8 1000000000],
  regR "TM_GCLCMD" 0x03A0_410C [] .l [w1s 2 0],
  reg "TM_PORTCMD" 0x03A0_4200 [(97, 4)] .l [w1s 3 0],
  reg "TM_PORTCMD" 0x03A0_43E0 [(3, 4)] .l [w1s 0 0],
  reg "TM_INSTSTS" 0x03A0_4800 [(32, 4)] .none [ro 31 31, ro 19 0],
  reg "TM_GLBCFG" 0x03A0_8000 [] .h [rw 17 0 9216],
  reg "TM_SPILLCFG" 0x03A0_8004 [] .h [rw 17 0 16384],
  reg "TM_SUBCFG" 0x03A4_0000 [(16384, 0x10)] .h [rwr 9 0 1 1 1023],
  reg "TM_SUBCIR" 0x03A4_0004 [(16384, 0x10)] .h [rateF],
  reg "TM_SUBPIR" 0x03A4_0008 [(16384, 0x10)] .h [rateF],
  reg "TM_SUBBURST" 0x03A4_000C [(16384, 0x10)] .h burstFs,
  reg "TM_SVCCFG" 0x03A8_0000 [(2048, 0x10)] .h [rwr 9 0 1 1 1023],
  reg "TM_SVCCIR" 0x03A8_0004 [(2048, 0x10)] .h [rateF],
  reg "TM_SVCPIR" 0x03A8_0008 [(2048, 0x10)] .h [rateF],
  reg "TM_SVCBURST" 0x03A8_000C [(2048, 0x10)] .h burstFs,
  reg "TM_PORTCFG" 0x03A8_8000 [(97, 0x10)] .h [rws 7 0 20 [(0, 127), (224, 255)]],
  reg "TM_PORTPIR" 0x03A8_8004 [(97, 0x10)] .h [rateF],
  reg "TM_PORTBURST" 0x03A8_8008 [(97, 0x10)] .h [rwr 15 0 150 1 65535],
  reg "TM_PORTAGE" 0x03A8_800C [(97, 0x10)] .h [rw 15 0],
  reg "TM_PORTCFG" 0x03A8_8780 [(3, 0x10)] .h [rws 7 0 20 [(0, 127), (224, 255)]],
  reg "TM_PORTPIR" 0x03A8_8784 [(3, 0x10)] .h [rateF],
  reg "TM_PORTBURST" 0x03A8_8788 [(3, 0x10)] .h [rwr 15 0 150 1 65535],
  reg "TM_PORTAGE" 0x03A8_878C [(3, 0x10)] .h [rw 15 0],
  reg "TM_INSTQUOTA" 0x03A8_8800 [(32, 0x20)] .h [rw 19 0 1048575],
  reg "TM_INSTPIR" 0x03A8_8804 [(32, 0x20)] .h [rateF],
  reg "TM_INSTBURST" 0x03A8_8808 [(32, 0x20)] .h [rwr 15 0 150 1 65535],
  reg "TM_INSTSPBASE" 0x03A8_880C [(32, 0x20)] .h [rw 16 0],
  reg "TM_INSTSPSIZE" 0x03A8_8810 [(32, 0x20)] .h [rw 16 0],
  reg "TM_MIRCFG" 0x03A8_8814 [(32, 0x20)] .h [rw 2 0],
  reg "TM_WREDCFG" 0x03A8_9000 [(64, 0x40)] .h [rw 3 0],
  reg "TM_WREDTH" 0x03A8_9010 [(64, 0x40), (3, 4)] .h [rw 31 16, rw 15 0],
  reg "TM_WREDP" 0x03A8_9020 [(64, 0x40), (3, 4)] .h [rw 7 0],
  reg "TM_GATEBASENS" 0x03A8_A000 [(64, 0x20)] .l [rwr 29 0 0 0 999999999],
  reg "TM_GATEBASESEC" 0x03A8_A004 [(64, 0x20)] .l [rw32],
  reg "TM_GATEBASESECHI" 0x03A8_A008 [(64, 0x20)] .l [rw 15 0],
  reg "TM_GATECYCLE" 0x03A8_A00C [(64, 0x20)] .l [rwr 29 0 1000000 1000 1000000000],
  reg "TM_GATELEN" 0x03A8_A010 [(64, 0x20)] .l [rwr 10 0 1 1 1024],
  regP "TM_SHPCIR" 0x03A9_0010 [(4095, 0x10)] .h [rateF],
  regP "TM_SHPPIR" 0x03A9_0014 [(4095, 0x10)] .h [rateF],
  regP "TM_SHPBURST" 0x03A9_0018 [(4095, 0x10)] .h burstFs,
  reg "TM_QCFG" 0x03B0_0000 [(65536, 0x10)] .h [rwr 31 30 0 0 1, rw 29 24, rwr 21 12 1 1 1023, rw 11 0],
  reg "TM_QQUOTA" 0x03B0_0004 [(65536, 0x10)] .h [rw 19 0 4096],
  reg "TM_QSPILL" 0x03B0_0008 [(65536, 0x10)] .h [rw 31 31, rwr 17 0 8192 36 196608]]

def hifRegs : List RegDesc := [
  reg "HIF_LINKSTS" 0x03F0_1000 [] .none [ro 31 31, ro 26 24, ro 20 16],
  reg "HIF_VFSTS" 0x03F0_1004 [] .none [ro 31 31, ro 5 0],
  reg "HIF_RSTS" 0x03F0_2000 [(33, 0x80), (32, 4)] .none [ro 31 30, ro 27 24, ro 16 0],
  reg "HIF_CNT" 0x03F0_4000 [(33, 0x20), (8, 4)] .none [rc32],
  reg "HIF_DB" 0x03F0_5000 [(33, 0x80), (32, 4)] .l [wo 16 0],
  reg "HIF_RCFG" 0x03F0_8000 [(33, 0x400), (32, 0x20)] .l [rw 31 31, rwr 28 24 10 6 16, rw 21 20, rw 19 12, rw 11 11,
    rw 8 0],
  reg "HIF_RBASE_LO" 0x03F0_8004 [(33, 0x400), (32, 0x20)] .l [rw32],
  reg "HIF_RBASE_HI" 0x03F0_8008 [(33, 0x400), (32, 0x20)] .l [rw32],
  reg "HIF_RWB_LO" 0x03F0_800C [(33, 0x400), (32, 0x20)] .l [rw32],
  reg "HIF_RWB_HI" 0x03F0_8010 [(33, 0x400), (32, 0x20)] .l [rw32]]

def insRegs : List RegDesc := [
  { regR "INS_CMD" 0x03F8_1000 [] .l [w1s 31 31, rwr 30 28 0 1 4, rw 4 0] with pfOnly := true },
  { regR "INS_CMDSTS" 0x03F8_1004 [] .none [ro 31 31, ro 3 0] with pfOnly := true },
  reg "INS_STATE" 0x03F8_1100 [(32, 4)] .none [ro 31 28, ro 15 0],
  regR "INS_FABORT" 0x03F8_1200 [] .l [w1s 31 31, rw 29 28, rw 20 16, rw 15 0],
  regR "INS_FASTS" 0x03F8_1204 [] .none [ro 31 26, ro 19 0],
  regR "INS_HEVT" 0x03F8_1300 [] .l [w1s 31 31, rw 12 8, rw 7 0],
  regR "INS_HEVTDATA" 0x03F8_1304 [] .l [rw32],
  regR "INS_HEVTSTS" 0x03F8_1308 [] .none [ro 31 31, ro 1 0],
  reg "INS_RES" 0x03F8_2000 [(32, 0x40), (16, 4)] .none [ro32],
  reg "INS_CFG" 0x03F8_8000 [(1, 4)] .l [rw 31 16 0xFFFF, rw 0 0 1],
  reg "INS_CFG" 0x03F8_8004 [(31, 4)] .l [rw 31 16 0xFFFF, rw 0 0]]

end Sys2Proof.Machine
end

