-- ==== Sys2Proof/Machine/Maps.lean ====
section
/-! DEFINITION. Sparse data by key: lists of key and value pairs with strictly rising keys, the one canonical form in
which equal maps are equal lists. A map with a default holds no entry equal to it. Byte memories are such maps of
`Host.Cell`. -/

namespace Sys2Proof.Machine

/-- The entry at key `k`, if the map lists one. -/
def mfind {V : Type} : List (Nat × V) → Nat → Option V
  | [], _ => none
  | (k', v) :: t, k => if k' = k then some v else mfind t k

/-- The map with `v` at `k`, its keys kept rising. -/
def mins {V : Type} : List (Nat × V) → Nat → V → List (Nat × V)
  | [], k, v => [(k, v)]
  | (k', v') :: t, k, v =>
    if k < k' then (k, v) :: (k', v') :: t
    else if k' = k then (k, v) :: t
    else (k', v') :: mins t k v

/-- Remove an entry. -/
def mdel {V : Type} (m : List (Nat × V)) (k : Nat) : List (Nat × V) := m.filter (fun p => p.1 != k)

/-- The map with the entry at `k` replaced (`some`) or removed (`none`). -/
def mset {V : Type} (m : List (Nat × V)) (k : Nat) (o : Option V) : List (Nat × V) :=
  match o with
  | some v => mins m k v
  | none => mdel m k

/-- The value at `k` of a map whose unlisted keys hold `d`. -/
def mget {V : Type} (m : List (Nat × V)) (k : Nat) (d : V) : V := (mfind m k).getD d

/-- Write `v` at `k`: an entry equal to the default is not listed. -/
def mput {V : Type} [DecidableEq V] (m : List (Nat × V)) (k : Nat) (v d : V) : List (Nat × V) :=
  mset m k (if v = d then none else some v)

/-- Change the value at `k` of a map with default `d`. -/
def mmod {V : Type} [DecidableEq V] (m : List (Nat × V)) (k : Nat) (d : V) (f : V → V) : List (Nat × V) :=
  mput m k (f (mget m k d)) d

/-- Whether a key is listed. -/
def mhas {V : Type} (m : List (Nat × V)) (k : Nat) : Bool := (mfind m k).isSome

/-- The keys of a map, rising. -/
def mkeys {V : Type} (m : List (Nat × V)) : List Nat := m.map (·.1)

/-- Keys strictly rising from above `lo`. -/
def msortedFrom {V : Type} : Nat → List (Nat × V) → Bool
  | _, [] => true
  | lo, (k, _) :: t => decide (lo ≤ k) && msortedFrom (k + 1) t

/-- The canonical form of a map: keys strictly rising. -/
def msorted {V : Type} (m : List (Nat × V)) : Bool := msortedFrom 0 m

/-- The canonical form of a map with default `d`: keys strictly rising and no entry equal to `d`. -/
def mwf {V : Type} [DecidableEq V] (m : List (Nat × V)) (d : V) : Bool :=
  msorted m && m.all (fun p => decide (p.2 ≠ d))

/-- Entries whose key lies in [a, a+n) removed. -/
def mclear {V : Type} (m : List (Nat × V)) (a n : Nat) : List (Nat × V) :=
  m.filter (fun p => !(decide (a ≤ p.1) && decide (p.1 < a + n)))

/-- `n` keys from `src` copied over the `n` keys from `dst`. -/
def mcopy {V : Type} (m : List (Nat × V)) (src dst n : Nat) : List (Nat × V) :=
  m.filter (fun p => decide (p.1 < dst)) ++
  (m.filter (fun p => decide (src ≤ p.1) && decide (p.1 < src + n))).map (fun p => (p.1 - src + dst, p.2)) ++
  m.filter (fun p => decide (dst + n ≤ p.1))

/-- A byte memory: canonical cells; an unlisted address reads as the fill byte of its memory. -/
abbrev Mem := List Host.Cell

/-- The byte at an address of a memory with fill byte `fill`. -/
def memRd (m : Mem) (fill : Byte) (a : Nat) : Byte := mget m a fill

/-- Write one byte. -/
def memWr (m : Mem) (fill : Byte) (a : Nat) (b : Byte) : Mem := mput m a b fill

/-- `n` bytes from address `a`, lowest address first. -/
def memRdN (m : Mem) (fill : Byte) (a : Nat) : Nat → List Byte
  | 0 => []
  | n + 1 => memRd m fill a :: memRdN m fill (a + 1) n

/-- Write bytes from address `a` upward. -/
def memWrN (m : Mem) (fill : Byte) (a : Nat) : List Byte → Mem
  | [] => m
  | b :: t => memWrN (memWr m fill a b) fill (a + 1) t

/-- The canonical form of a byte memory with fill byte `fill`. -/
def Memory.wf (m : Mem) (fill : Byte) : Bool := mwf m fill

end Sys2Proof.Machine
end

