-- ==== Sys2Proof/Machine/State.lean ====
section
/-! DEFINITION. The state of the device, as plain data. -/

namespace Sys2Proof.Machine

/-- STATE of BLK_STATE (01 R50). -/
inductive BlkSt where
  | reset | idle | run | draining
  deriving DecidableEq, Repr

/-- One copy of a block's common header: BLK_CFGSTS and BLK_STATE (01 R49, R50). -/
structure BlkCopy where
  /-- CFG_BUSY, sticky (01 R49, R16). -/
  cfgBusy : Bool
  /-- CFG_REJECT, sticky (01 R49, R15). -/
  cfgReject : Bool
  /-- CFG_MODE, sticky (01 R49, R51). -/
  cfgMode : Bool
  /-- EXPERT: an expert write has been accepted (01 R51). -/
  expert : Bool
  /-- IDLE_REQ (01 R49). -/
  idleReq : Bool
  /-- STATE (01 R50). -/
  st : BlkSt
  /-- The block reads DRAINING or IDLE because IDLE_REQ was 1 (01 R50). -/
  byReq : Bool
  deriving DecidableEq, Repr

/-- A block copy after its reset (01 R49). -/
def BlkCopy.init : BlkCopy :=
  { cfgBusy := false, cfgReject := false, cfgMode := false, expert := false, idleReq := false, st := .reset,
    byReq := false }

/-- What the device sends out: everything the outside can observe. -/
inductive Out where
  /-- A frame on a network port, without FCS; `badFcs`: sent with the FCS inverted (18 R473); `ctrl`: a PAUSE or
  PFC frame the device generated (03 R117). -/
  | frame (port : Nat) (bytes : List Byte) (badFcs ctrl : Bool)
  /-- A write of bytes into host memory by DMA. -/
  | hostWrite (func addr : Nat) (bytes : List Byte)
  /-- An MSI-X interrupt message. -/
  | msix (func vector : Nat)
  /-- The word a register read returned to its requester. -/
  | readData (r : Req) (v : Word)
  /-- A message or packet carried to steward firmware. -/
  | toSteward (bytes : List Byte)
  deriving DecidableEq, Repr

/-- The registers that are held as their words, and the block headers. -/
structure RegFile where
  /-- The words of the registers, by BAR0 offset, plus 2^26 times the requester index for a register held separately
  for each requester (20 R519, R520). A register not listed holds its reset word (00 R10). -/
  vals : List (Nat × Word)
  /-- The shadow values of H-class registers, waiting for their commit point (00 R16). -/
  shadow : List (Nat × Word)
  /-- The header of each copy of each block, by 64 times the block index plus the copy (01 R49). -/
  blk : List (Nat × BlkCopy)
  deriving DecidableEq, Repr

/-- STATE of the journal (18 R491). -/
inductive JSt where
  | idle | run | post | frozen
  deriving DecidableEq, Repr

/-- STATE of the replay engine (18 R500, R503). -/
inductive RpSt where
  | idle | run | paused | diverged | done | badScript
  deriving DecidableEq, Repr

/-- The Primrose journal and the replay engine. -/
structure Journal where
  /-- STATE (18 R491). -/
  st : JSt
  /-- The staging buffer: records received and not yet in the DRAM ring, as (ring position, 64-bit word), oldest
  first, at most 32,768 words (18 R492). -/
  staged : List (Nat × Nat)
  /-- The position the next word takes, in 8-byte units from the ring's start, not wrapped (18 R498, R503). -/
  pos : Nat
  /-- The next JSEQ (18 R493). -/
  jseq : Nat
  /-- The next ITEMSEQ (18 R494). -/
  itemSeq : Nat
  /-- The time of the previous PACKET record of each pipe (18 R493). -/
  lastPkt : List (Nat × Nat)
  /-- PACKET records lost since the last LOST record (18 R496). -/
  lostPkt : Nat
  /-- All records lost since the last LOST record (18 R496). -/
  lostAll : Nat
  /-- The time the trigger was accepted, while POST (18 R498). -/
  trigAt : Nat
  /-- The trigger-index entry of the last trigger (18 R498). -/
  trigEntry : Nat
  /-- The bytes the capture bucket holds, in bits (18 R495). -/
  capBits : Nat
  /-- The time the capture bucket was last filled (18 R495). -/
  capAt : Nat
  /-- STATE of the replay engine (18 R503). -/
  rp : RpSt
  /-- The next 8-byte word of the script to work through (18 R500). -/
  rpPos : Nat
  /-- The JSEQ, core, thread and PC of a divergence (18 R501). -/
  rpDiv : Nat × Nat × Nat × Nat
  /-- The input records of the item being replayed that no thread has taken yet, as words (18 R500). -/
  rpInputs : List (List Nat)
  /-- The JSEQ the replay's next packet has in its record (18 R500). -/
  rpJseq : Nat
  deriving DecidableEq, Repr

/-- The MRAM of the steward (18 R488). Its registers MRM_THIST and MRM_LIFE are among the registers. -/
structure Mram where
  /-- The logical-to-physical block map; a block not listed maps to itself (18 R488, R489). -/
  map : List (Nat × Nat)
  /-- The write count of each physical block (18 R488). -/
  writes : List (Nat × Nat)
  /-- The fault-log ring: 16,384 records of 8 words (18 R486, R488). -/
  log : List (Nat × List Word)
  /-- The next record index of the fault log (18 R504). -/
  logNext : Nat
  /-- The fault log has wrapped (18 R504). -/
  logWrapped : Bool
  /-- Records of severity 1 or more the steward has yet to append, oldest first (18 R486). -/
  logPend : List (List Word)
  /-- The trigger-index ring: 64 entries of 8 words (18 R498). -/
  trig : List (Nat × List Word)
  /-- The number of the trigger-index entry written last (18 R498). -/
  trigLast : Option Nat
  /-- The thermal histogram as MRAM holds it (18 R490). -/
  thist : List (Nat × Word)
  /-- The lifetime counters as MRAM holds them (18 R490). -/
  life : List (Nat × Word)
  /-- The LMS state copies A and B (17 R459): their words, by copy. -/
  lms : List (Nat × List Word)
  deriving DecidableEq, Repr

/-- The device's times. -/
structure Clocks where
  /-- FAB nanoseconds since the rise of PORST_N (08 R258). -/
  fab : Nat
  /-- Seconds of the PTP counter, 48 bits (03 R108). -/
  sec : Nat
  /-- Nanoseconds of the PTP counter (03 R108). -/
  ns : Nat
  /-- Fraction of the PTP counter, in units of 2^-40 ns (03 R108). -/
  frac : Nat
  /-- FAB time of the last PTP SET or STEP (08 R258). -/
  jumpAt : Nat
  deriving DecidableEq, Repr

/-- A 32-bit value with its 4-bit tag code (07 R214, R217). -/
structure TV where
  v   : Word
  tag : Nat
  deriving DecidableEq, Repr

/-- The states of a thread (06 R196). -/
inductive TSt where
  | off | bound | getw | ready | stall | blocked | held | stopped
  deriving DecidableEq, Repr

/-- One hardware-loop level (07 R214, R237). -/
structure Lvl where
  ls : Nat
  le : Nat
  lc : Word
  deriving DecidableEq, Repr

/-- What a BLOCKED thread, or one in STALL for a free cell, waits for (05 R184). -/
inductive Wait where
  | none
  /-- A lock, by its lock number (11 R319). -/
  | lock (n : Nat)
  /-- FORCED, or a USER_EVENT of this number (09 R283). -/
  | event (n : Nat)
  /-- A context of a shared unit (10 R294). -/
  | clk (u : Nat)
  /-- An order wait (05 R179). -/
  | order
  /-- A free cell for the original of a BST's cell, in STALL (18 R476). -/
  | cell
  deriving DecidableEq, Repr

/-- An event record (06 R206). -/
structure Ev where
  code   : Nat
  posy   : Nat
  core   : Nat
  thread : Nat
  pc     : Nat
  info   : Nat
  info2  : Nat
  deriving DecidableEq, Repr

/-- One edit operation of an edit list (04 R151). -/
structure EditOp where
  op  : Nat
  a   : Nat
  b   : Nat
  imm : Nat
  deriving DecidableEq, Repr

/-- The fault of a HELD thread (06 R204). -/
structure FltRec where
  /-- The fault code (06 R199). -/
  code : Nat
  /-- The address after the faulting instruction's last byte, at which SKIP continues. -/
  skipTo : Nat
  /-- The time its record entered the supervisor's queue, once it has (06 R207). -/
  queuedAt : Option Nat
  /-- The time it became HELD: RUN_US does not count from then on (06 R203). -/
  since : Nat
  deriving DecidableEq, Repr

/-- One hardware thread. -/
structure Thread where
  /-- State (06 R196). -/
  st : TSt
  /-- g0 to g15 with their tags; a register not listed holds 0 with tag VOID (07 R214, 06 R196). -/
  g : List (Nat × TV)
  /-- PC, 19 bits (07 R214). -/
  pc : Nat
  /-- PC of the last instruction issued (06 R213). -/
  lastPc : Nat
  /-- FL.Z (07 R215). -/
  z : Bool
  /-- FL.N (07 R215). -/
  n : Bool
  /-- FL.C (07 R215). -/
  c : Bool
  /-- FL.V (07 R215). -/
  v : Bool
  /-- LS, LE and LC of levels 0 to 3 (07 R214). -/
  lv : List (Nat × Lvl)
  /-- LDEPTH: the levels in use (07 R216). -/
  depth : Nat
  /-- PKT (07 R214). -/
  pkt : TV
  /-- The packet context the thread holds: that of a PACKET, HANDOFF or other ordered item (05 R176). -/
  ctx : Option Nat
  /-- The matching-store entry of the item the thread holds (05 R164). -/
  entry : Option Nat
  /-- The edit buffer (09 R272). -/
  edit : List EditOp
  /-- BASE_PRIO (06 R192). -/
  base : Nat
  /-- What the thread waits for while BLOCKED (05 R184). -/
  wait : Wait
  /-- The order in which its lock or CLK request was made (11 R321, 10 R294). -/
  wseq : Nat
  /-- The address of the instruction after the one it waits in. -/
  wnext : Nat
  /-- The destination register of the instruction it waits in. -/
  wrd : Nat
  /-- The supervisor's event queue, oldest first, at most 16 (06 R207). -/
  evq : List Ev
  /-- Events were lost since the last record delivered (06 R206, R207). -/
  ovf : Bool
  /-- FAULT records waiting for room in the queue (06 R207). -/
  fq : List Ev
  /-- The pending list of FORCED and USER_EVENT records, oldest first, at most 8 (09 R283). -/
  pend : List Ev
  /-- Registers whose result has not arrived: 0 to 15 g-registers, 16 FL.Z (09 R282). -/
  busy : List Nat
  /-- The latch of the PTP seconds (08 R258). -/
  secLatch : Word
  /-- POS, the HASH position, 0 to 320 (10 R290). -/
  pos : Nat
  /-- P of the BF field control (10 R290). -/
  bfp : Nat
  /-- W of the BF field control, 1 to 32 (10 R290). -/
  bfw : Nat
  /-- The order in which it began to wait in GETW (05 R171). -/
  gseq : Nat
  /-- The time RUN_US counts from (06 R203). -/
  runAt : Nat
  /-- The time it entered STALL (06 R203). -/
  stallAt : Nat
  /-- The fault it is HELD for (06 R204). -/
  flt : Option FltRec
  /-- The mode of its debugger stop: true STOP_YIELD (06 R209, R210). -/
  yield : Bool
  /-- The state it returns to on RESUME (06 R210). -/
  back : TSt
  /-- It has just been resumed or stepped: a breakpoint at its PC does not stop it again. -/
  bkSkip : Bool
  /-- STEP (06 R213): 1 while it executes its one instruction, 2 once that has committed and it is to stop again. -/
  step : Nat
  /-- The time it stopped: its watchdog and FAULT_US pause meanwhile (06 R208). -/
  stopAt : Nat
  /-- The contexts it holds: unit and context number (10 R285). -/
  cps : List (Nat × Nat)
  /-- The units it must acquire again on RESUME, with the recorded address (06 R210). -/
  reacq : List (Nat × Nat)
  deriving DecidableEq, Repr

/-- A tagged value 0 with tag VOID (07 R217). -/
def TV.void : TV := { v := 0, tag := 15 }

/-- A thread that is OFF, its registers as on entering BOUND (06 R196). -/
def Thread.init : Thread :=
  { st := .off, g := [], pc := 0, lastPc := 0, z := false, n := false, c := false, v := false, lv := [], depth := 0,
    pkt := TV.void, ctx := none, entry := none, edit := [], base := 1, wait := .none, wseq := 0, wnext := 0, wrd := 0,
    evq := [], ovf := false, fq := [], pend := [], busy := [], secLatch := 0, pos := 0, bfp := 0, bfw := 32, gseq := 0,
    runAt := 0, stallAt := 0, flt := none, yield := false, back := .off, bkSkip := false, step := 0, stopAt := 0, cps := [],
    reacq := [] }

/-- One physical core (06 R213, 01 R32). -/
structure CoreRec where
  /-- RETIRED (06 R212). -/
  retired : Bool
  /-- SPARE_ACTIVE: a spare that has replaced a core (06 R213). -/
  spareActive : Bool
  /-- For a spare, the core replaced; for a retired core, its spare (06 R213). -/
  other : Option Nat
  /-- The times of its hardware-class faults (06 R212). -/
  hw : List Nat
  /-- For a spare chosen to join, the physical core whose memory it is to receive (06 R212). -/
  src : Option Nat
  deriving DecidableEq, Repr

/-- A core after reset. -/
def CoreRec.init : CoreRec := { retired := false, spareActive := false, other := none, hw := [], src := none }

/-- The cores, their threads and their memories. -/
structure Cores where
  /-- The threads, by 8 times the core plus the thread (07 R214). -/
  thr : List (Nat × Thread)
  /-- The cores (06 R213). -/
  core : List (Nat × CoreRec)
  /-- Core-local memory, by 131,072 times the core plus the address (06 R194). -/
  mem : Mem
  /-- The tag beside each word of core-local memory, by 32,768 times the core plus the word (07, "Tags"). -/
  tags : List (Nat × Nat)
  /-- The poison mark of each word of core-local memory, by the same key (06 R195). -/
  poison : List (Nat × Bool)
  /-- The instruction stores, by 524,288 times the cluster plus the address; filler 0xFE (06 R194, 02 R76). -/
  istore : Mem
  /-- The 64-byte instruction lines with an uncorrectable error, by 8,192 times the cluster plus the line (06 R195). -/
  badLine : List (Nat × Bool)
  /-- Instructions committed, by core (06 R213). -/
  commits : List (Nat × Nat)
  /-- The next request number: the order of lock and CLK requests and of entries into GETW. -/
  seq : Nat
  deriving DecidableEq, Repr

/-- A command a shared-unit context has in progress (10 R295). -/
structure CpxCmd where
  /-- Command code (10 R305). -/
  code : Nat
  /-- The c-registers as they stood at the GO (10 R295). -/
  ops : List (Nat × TV)
  /-- The thread that committed it. -/
  tid : Nat
  /-- It has side effects, so FENCE waits for it (10 R299, 08 R244). -/
  se : Bool
  deriving DecidableEq, Repr

/-- One context of a shared unit (10 R293). -/
structure CpxCtx where
  /-- The holding thread (10 R317). -/
  holder : Option Nat
  /-- DEBUG_RELEASED (10 R294). -/
  dbg : Bool
  /-- RELEASING (10 R317). -/
  releasing : Bool
  /-- c0 to c15; a register not listed holds 0 with tag VOID (10 R293). -/
  c : List (Nat × TV)
  /-- The scoreboard bits that are set (10 R297). -/
  sb : List Nat
  /-- The command outstanding (10 R295). -/
  cmd : Option CpxCmd
  /-- The address after the CLK that granted it (09 R285). -/
  clkPc : Nat
  /-- MTC has written since the last GO or CLK (06 R210). -/
  staged : Bool
  /-- For each BUF moved in by MTC: the c-register and the g-register it came from (10 R302). -/
  from? : List (Nat × Nat)
  deriving DecidableEq, Repr

/-- A free context (10 R293). -/
def CpxCtx.init : CpxCtx :=
  { holder := none, dbg := false, releasing := false, c := [], sb := [], cmd := none, clkPc := 0, staged := false,
    from? := [] }

/-- One AES key slot (10 R318). -/
structure KeySlot where
  /-- The key bytes, most significant first: 16 or 32 of them. -/
  key : List Byte
  deriving DecidableEq, Repr

/-- The shared units. -/
structure Cpx where
  /-- The contexts, by 64 times the cluster plus 8 times the unit plus the context (10 R293). -/
  ctx : List (Nat × CpxCtx)
  /-- The key slots in use, by 128 times the instance plus the slot (10 R318). -/
  keys : List (Nat × KeySlot)
  /-- How often each key slot has been deleted. -/
  keyGen : List (Nat × Nat)
  deriving DecidableEq, Repr

/-- An atomic operation committed and not yet performed (11 R330). -/
structure AtomReq where
  tid : Nat
  /-- 0 add, 1 and, 2 or, 3 swap, 4 compare and swap. -/
  op  : Nat
  /-- True: DRAM; false: shared scratch. -/
  dram : Bool
  /-- Byte address in the space. -/
  addr : Nat
  val : Word
  cmp : Word
  rd : Nat
  deriving DecidableEq, Repr

/-- A lock that is held, or that carries a status (11 R327). -/
structure Lock where
  /-- The holder: a thread's number, or 2,000 for the steward. -/
  holder : Option Nat
  /-- STATUS: 0 CLEAN, 1 ABANDONED, 2 FORCE_RELEASED. -/
  status : Nat
  deriving DecidableEq, Repr

/-- The lock unit (11). -/
structure Locks where
  /-- The locks by lock number (11 R319); a lock not listed is free and CLEAN. -/
  lk : List (Nat × Lock)
  /-- The lock the steward waits for, with its request number (11 R328). -/
  stwWait : Option (Nat × Nat)
  /-- Atomic operations committed and not yet performed, oldest first (11 R330). -/
  atoms : List AtomReq
  /-- Program scratch, 2 MiB (11 R329). -/
  scratch : Mem
  deriving DecidableEq, Repr

/-- The free store of one buffer pool (12 R338). -/
structure Pool where
  /-- The first index never handed out since initialisation. -/
  fresh : Nat
  /-- The free ring, head first (12 R339). -/
  ring : List Nat
  /-- The cache of each pipe, newest entry first (12 R340). -/
  cache : List (Nat × List Nat)
  deriving DecidableEq, Repr

/-- A pool just initialised (12 R338). -/
def Pool.init : Pool := { fresh := 0, ring := [], cache := [] }

/-- The buffer pools. -/
structure Pools where
  pool : List (Nat × Pool)
  /-- The pool area, 2 MiB (12 R334). -/
  area : Mem
  /-- Accepted frees on their way to a cache: pool, pipe and index, oldest first (12 R345). -/
  frees : List (Nat × Nat × Nat)
  deriving DecidableEq, Repr

/-- One header of a parse result (04 R130). -/
structure Hdr where
  ty  : Nat
  len : Nat
  off : Nat
  deriving DecidableEq, Repr

/-- A parse result (04 R130). -/
structure ParseRes where
  hdrs     : List Hdr
  pass     : Nat
  flags    : Nat
  epoch    : Nat
  frameLen : Nat
  endOff   : Nat
  dataEnd  : Nat
  inPort   : Nat
  deriving DecidableEq, Repr

/-- An empty parse result. -/
def ParseRes.init : ParseRes :=
  { hdrs := [], pass := 0, flags := 0, epoch := 0, frameLen := 0, endOff := 0, dataEnd := 0, inPort := 0 }

/-- A packet in the packet buffer, known by its first cell. -/
structure Pkt where
  /-- Owning instance. -/
  inst : Nat
  /-- The frame as received on the current pass: the header window reads it (08 R252). -/
  win : List Byte
  /-- The stored frame, which BST changes (09 R277). -/
  bytes : List Byte
  /-- The logical receive port (04 R130). -/
  inPort : Nat
  /-- The port its cells are charged to: the one it was first received on (03 R114). -/
  from_ : Nat
  /-- The pipe that parses it. -/
  pipe : Nat
  /-- Parse pass, 0 to 3 (01 R29). -/
  pass : Nat
  /-- The epoch slot stamped at its first parse; 4 before it (04 R139). -/
  slot : Nat
  /-- The parse result of the current pass. -/
  parse : ParseRes
  /-- The four result words of its lookups (04 R144); empty where no key profile is valid. -/
  lkp : List Nat
  /-- The verdict operand (04 R145). -/
  verdict : Nat
  /-- The edit list the classifier resolved (04 R153). -/
  edits : List EditOp
  /-- The mirror copies it carries (09 R270). -/
  mirrors : Nat
  /-- The header marked for one-step insertion (04 R151). -/
  oneStep : Option Nat
  /-- Its JSEQ (18 R493). -/
  jseq : Option Nat
  /-- Receive time: nanoseconds and seconds (03 R111). -/
  rxNs : Nat
  rxSec : Nat
  /-- Colour: 0 green, 1 yellow, 2 red (04 R148). -/
  colour : Nat
  /-- Cells it occupies, and how many of them are charged to GUAR, the shared pool and HEADROOM (03 R115). -/
  cells : Nat
  guar : Nat
  shared : Nat
  head : Nat
  /-- The receive priority its cells are charged to (03 R114). -/
  prio : Nat
  /-- Original cells saved before a BST, by cell number within the packet (18 R476). -/
  saved : List (Nat × List Byte)
  /-- It is poisoned: transmitted with its FCS inverted (18 R473). -/
  bad : Bool
  /-- Its cells are charged to the shared pool alone: a mirror copy (14 R383), or a packet read back from DRAM (14 R387). -/
  copy : Bool
  /-- The trap code of a packet for the host (09 R269); 256 plus FLAGS for an exception (04 R131). -/
  trap : Option Nat
  /-- Target posy, flow, work priority and queue its combined actions chose (04 R153). -/
  posy : Nat
  flow : Nat
  wprio : Nat
  queue : Nat
  /-- Time it was queued (14 R384), or began to wait for a context (05 R169). -/
  since : Nat
  /-- Its terminal operation is DIRECT: it takes a context and no item (05 R162). -/
  direct : Bool
  /-- The automaton set of the scan it requested (04 R145). -/
  scan : Option Nat
  deriving DecidableEq, Repr

/-- A packet with nothing in it. -/
def Pkt.init : Pkt :=
  { inst := 0, win := [], bytes := [], inPort := 0, from_ := 0, pipe := 0, pass := 0, slot := 4, parse := ParseRes.init, lkp := [],
    verdict := 0, edits := [], mirrors := 0, oneStep := none, jseq := none, rxNs := 0, rxSec := 0, colour := 0,
    cells := 0, guar := 0, shared := 0, head := 0, prio := 0, saved := [], bad := false, copy := false, trap := none,
    posy := 0, flow := 0, wprio := 0, queue := 0, since := 0, direct := false, scan := none }

/-- Where an item stands (05 R165). -/
inductive ItSt where
  | waiting | ready | held
  /-- Its execution ended in a hardware-class fault, or its core was retired: it waits to re-enter its list (18 R478). -/
  | again
  deriving DecidableEq, Repr

/-- A work item in the matching store (05 R160, R164). -/
structure Item where
  kind    : Nat
  prio    : Nat
  ordered : Bool
  handoff : Bool
  inst    : Nat
  oflow   : Nat
  posy    : Nat
  /-- Operand kinds of slots 0 to 3 (05 R161). -/
  slots   : List Nat
  pkt     : Word
  arg     : Word
  st      : ItSt
  /-- The slots that hold their operand. -/
  got     : List Nat
  /-- The slots marked MISSING (05 R167). -/
  miss    : List Nat
  /-- The message data of each MSG slot. -/
  msg     : List (Nat × List Word)
  /-- Its packet's first cell, for PACKET and HANDOFF items. -/
  cell    : Option Nat
  /-- The context of an ordered item or of a packet. -/
  ctx     : Option Nat
  /-- Creation time (05 R167) and ready time (05 R170). -/
  created : Nat
  readyAt : Nat
  /-- The list it is ready in: its posy, or the core posy the hash chose (05 R174). -/
  list    : Nat
  /-- Executions that ended in a hardware-class fault (18 R479). -/
  exec    : Nat
  /-- Its JSEQ or ITEMSEQ (18 R494). -/
  seq     : Option Nat
  /-- The edit list as delivered (18 R476). -/
  edits   : List EditOp
  /-- The core its last execution faulted on: re-execution avoids it (18 R478). -/
  avoid   : Option Nat
  deriving DecidableEq, Repr

/-- The states of a packet context (05 R176). -/
inductive CtxSt where
  | free | mtch | ready | run | done | unord
  deriving DecidableEq, Repr

/-- What release does with a packet (05 R177). -/
inductive Disp where
  | none
  | send (queue : Nat)
  | drop (reason : Nat)
  | host (code : Nat)
  | recirc
  | void
  deriving DecidableEq, Repr

/-- A packet context (05 R176). -/
structure Ctx where
  st   : CtxSt
  inst : Nat
  flow : Nat
  cell : Option Nat
  disp : Disp
  deriving DecidableEq, Repr

/-- A free context. -/
def Ctx.init : Ctx := { st := .free, inst := 0, flow := 0, cell := none, disp := .none }

/-- An entry of a delay list (05 R182). -/
structure DlEntry where
  list  : Nat
  inst  : Nat
  due   : Nat
  /-- The TIMER descriptor of a CREATE action, or the WID, slot and data of a MESSAGE (05 R182). -/
  create : Bool
  words : List Word
  slot  : Nat
  /-- Arm order (05 R183). -/
  seq   : Nat
  gen   : Nat
  /-- The time it was armed, or of its last firing that is to be retried: it fires at a boundary after it (05 R183). -/
  after : Nat
  deriving DecidableEq, Repr

/-- The dispatcher, matching store and ordered release. -/
structure Dsp where
  /-- The matching store by entry (05 R164). -/
  items : List (Nat × Item)
  /-- GEN of each entry (05 R166). -/
  gens : List (Nat × Nat)
  /-- The contexts that are not FREE (05 R176). -/
  ctxs : List (Nat × Ctx)
  /-- The sequence of each flow: contexts not yet released, earliest first (05 R175). -/
  flows : List (Nat × List Nat)
  /-- The flow served last by release (05 R177). -/
  lastFlow : Nat
  /-- The ready lists, by 8 times the posy plus the priority (05 R170). -/
  ready : List (Nat × List Nat)
  /-- CUR[x][m] of round-robin spreading, by 256 x + m (05 R173). -/
  cur : List (Nat × Int)
  /-- The context-wait lists, by 4 times the instance plus the pipe: first cells, oldest first (05 R169). -/
  wait : List (Nat × List Nat)
  /-- The pipe whose list is served next, by instance (05 R169). -/
  waitRot : List (Nat × Nat)
  /-- The instance served last by dispatch (05 R171). -/
  lastInst : Nat
  /-- The delay-list entries armed (05 R181). -/
  dl : List (Nat × DlEntry)
  /-- GEN of each delay-list entry (05 R182). -/
  dlGen : List (Nat × Nat)
  /-- The posies whose detector has fired in the present period (05 R186). -/
  qdFired : List Nat
  /-- The packets in the packet buffer, by first cell. -/
  pkts : List (Nat × Pkt)
  deriving DecidableEq, Repr

/-- A POSY record (02 R60). -/
structure PosyRec where
  id        : Nat
  isSet     : Bool
  parent    : Nat
  inst      : Nat
  core      : Nat
  supCore   : Nat
  supThread : Nat
  deriving DecidableEq, Repr

/-- A MODE record (02 R64). -/
structure ModeRec where
  root   : Nat
  plain  : Bool
  worker : Nat
  sup    : Nat
  deriving DecidableEq, Repr

/-- An INST record (02 R66). -/
structure InstRec where
  inst     : Nat
  vf       : Nat
  root     : Nat
  amBanks  : Nat
  pools    : Nat
  qBase    : Nat
  qCount   : Nat
  subBase  : Nat
  subCount : Nat
  polBase  : Nat
  polCount : Nat
  dramBase : Nat
  dramSize : Nat
  contexts : Nat
  timers   : Nat
  deriving DecidableEq, Repr

/-- A PORT record (02 R68). -/
structure PortRec where
  mac   : Nat
  lport : Nat
  inst  : Nat
  long  : Bool
  deriving DecidableEq, Repr

/-- An OFLW record (02 R70). -/
structure OflwRec where
  inst  : Nat
  base  : Nat
  count : Nat
  deriving DecidableEq, Repr

/-- A QHIE record (02 R71). -/
structure QhieRec where
  level  : Nat
  inst   : Nat
  cls    : Nat
  sched  : Nat
  node   : Nat
  parent : Nat
  deriving DecidableEq, Repr

/-- A TGEO record (02 R73). -/
structure TgeoRec where
  table : Nat
  inst  : Nat
  kind  : Nat
  width : Nat
  base  : Nat
  size  : Nat
  hash  : Nat
  deriving DecidableEq, Repr

/-- A header-type record of a parse graph (04 R125). -/
structure ParseType where
  id       : Nat
  kind     : Nat
  fixLen   : Nat
  lenOff   : Nat
  lenLsb   : Nat
  lenWidth : Nat
  lenShift : Nat
  selOff   : Nat
  selLsb   : Nat
  selWidth : Nat
  deriving DecidableEq, Repr

/-- An edge record of a parse graph (04 R126). -/
structure ParseEdge where
  src   : Nat
  dst   : Nat
  value : Nat
  mask  : Nat
  deriving DecidableEq, Repr

/-- A parse graph (04 R125). -/
structure Graph where
  types : List ParseType
  edges : List ParseEdge
  deriving DecidableEq, Repr

/-- What an epoch slot binds: a parse graph and the rule set as it stood at the commit (04 R138). -/
structure EpochRec where
  /-- The graph slot, 0 to 3. -/
  graph : Nat
  /-- The words of the rule-set registers, by offset. -/
  rules : List (Nat × Word)
  deriving DecidableEq, Repr

/-- What the combined actions of a packet come to (04 R153). -/
structure Resolved where
  edits   : List EditOp
  /-- Queue number. -/
  queue   : Nat
  /-- The outgoing colour SET_COLOUR chose. -/
  colour  : Option Nat
  flow    : Nat
  prio    : Nat
  posy    : Nat
  /-- Ports and truncations of the MIRROR operations that take effect. -/
  mirrors : List (Nat × Nat)
  /-- The counters of the COUNT operations. -/
  counts  : List Nat
  /-- 0 none, 1 DIRECT, 2 RECIRC, 3 TRAP, 4 DROP. -/
  term    : Nat
  trap    : Nat
  oneStep : Option Nat
  scan    : Option Nat
  deriving DecidableEq, Repr

/-- An entry of a fragment-follow table (04 R135). -/
structure FragRec where
  /-- Instance, IP version, addresses, identification and protocol. -/
  key    : List Nat
  /-- Creation time. -/
  at_    : Nat
  slot   : Nat
  lkp    : List Nat
  colour : Nat
  res    : Resolved
  deriving DecidableEq, Repr

/-- The run-time state of a policer (04 R148): token counts in units of 2^-16 byte. -/
structure Pol where
  last : Nat
  tc   : Nat
  t2   : Nat
  deriving DecidableEq, Repr

/-- A push template (04 R159). -/
structure Tmpl where
  bytes  : List Byte
  ipOff  : Nat
  udpOff : Nat
  deriving DecidableEq, Repr

/-- Parsing, classification and editing state. -/
structure Rules where
  /-- The parse graphs in the 4 graph slots (04 R138). -/
  graphs : List (Nat × Graph)
  /-- The graph slot of the graph loaded last, which a new epoch binds (04 R140). -/
  graphNow : Nat
  /-- What each epoch slot that is not FREE binds, by 4 times the instance plus the slot (04 R138). -/
  epochs : List (Nat × EpochRec)
  /-- The fragment-follow tables, by pipe, oldest first (04 R135). -/
  frags  : List (Nat × List FragRec)
  /-- The policers, by 32,768 times the pipe plus the policer (04 R148). -/
  pols   : List (Nat × Pol)
  /-- The action lists, by store slot (04 R150). -/
  acts   : List (Nat × List EditOp)
  /-- The templates (04 R159). -/
  tmpls  : List (Nat × Tmpl)
  deriving DecidableEq, Repr

/-- A frame on its way out: past the traffic manager, the editor or the governors (01 R28). -/
structure EFrame where
  /-- The packet's first cell. -/
  cell  : Nat
  /-- The logical port it leaves by. -/
  port  : Nat
  /-- The class of the queue it was sent from (16 R428). -/
  cls   : Nat
  /-- The frame, without FCS; before its edits, empty. -/
  bytes : List Byte
  /-- Where its PTP header begins, where the UDP header before it does, and whether it is marked for one-step insertion
  (03 R112, R113). -/
  ptp   : Option (Nat × Option Nat × Bool)
  deriving DecidableEq, Repr

/-- A packet in a queue (14 R386). -/
structure TmPkt where
  cell  : Nat
  /-- 0 on-chip, 1 being written to DRAM, 2 in DRAM, 3 being read back. -/
  place : Nat
  deriving DecidableEq, Repr

/-- A queue (14 R382). -/
structure TmQ where
  /-- Its packets, head first. -/
  pkts : List TmPkt
  /-- AVG is `avgN` divided by 2^`avgE`. -/
  avgN : Nat
  avgE : Nat
  deriving DecidableEq, Repr

/-- An empty queue. -/
def TmQ.init : TmQ := { pkts := [], avgN := 0, avgE := 0 }

/-- A shaper (14 R379). -/
structure Cred where
  /-- CRED in units of 2^-16 byte. -/
  cred : Int
  /-- LAST. -/
  last : Nat
  /-- Its entry on the calendar: the time it is due. -/
  due  : Option Nat
  deriving DecidableEq, Repr

/-- A shaper at its start. -/
def Cred.init : Cred := { cred := 0, last := 0, due := none }

/-- The gate lists of a network port (14 R389, R390). -/
structure TGate where
  /-- The running bank. -/
  bank : Nat
  /-- A list runs. -/
  on   : Bool
  /-- The PTP time its list started or will have started, in nanoseconds. -/
  t0   : Nat
  /-- CYCLE of the running list. -/
  cyc  : Nat
  /-- Entries of the running list. -/
  len  : Nat
  /-- PENDING, with the takeover time T. -/
  pend : Option Nat
  /-- The gate states last put into effect. -/
  open_ : Nat
  deriving DecidableEq, Repr

/-- A port's gates after reset: no list runs. -/
def TGate.init : TGate := { bank := 0, on := false, t0 := 0, cyc := 0, len := 0, pend := none, open_ := 255 }

/-- The traffic manager (14). -/
structure Tm where
  /-- The queues by number; one not listed is empty. -/
  qs   : List (Nat × TmQ)
  /-- The shapers by 65,536 times the kind plus the index: kind 0 and 1 the committed and peak shaper of a queue, 2 and 3
  of a subscriber, 4 and 5 of a service node, 6 the peak shaper of a port, 7 of an instance (14 R378). -/
  cred : List (Nat × Cred)
  /-- RPTR of a node and class, by 8 times the node plus the class; a node is 65,536 times its level plus its index
  (14 R376). -/
  rptr : List (Nat × Nat)
  /-- PTR, by the same key. -/
  ptr  : List (Nat × Nat)
  /-- DEF of a child and class, by the same key (14 R376). -/
  dfc  : List (Nat × Int)
  /-- OVER_SHARE of queues, and of instance i at 65,536 + i (14 R385). -/
  overShare : List (Nat × Bool)
  /-- The entries of the gate lists, by 1,024 times (2 times the port plus the bank) plus the entry: gates and interval. -/
  gcl  : List (Nat × Nat × Nat)
  /-- The gates of each network port. -/
  gate : List (Nat × TGate)
  /-- A new queue hierarchy waiting for the next calendar-slot boundary (14 R381). -/
  next : Option (List QhieRec)
  deriving DecidableEq, Repr

/-- A traffic manager with nothing in it. -/
def Tm.init : Tm :=
  { qs := [], cred := [], rptr := [], ptr := [], dfc := [], overShare := [], gcl := [], gate := [], next := none }

/-- Charged cells of one port and priority (03 R115). -/
structure Occ where
  g : Nat
  s : Nat
  h : Nat
  deriving DecidableEq, Repr

/-- A MACsec association in key memory (03 R104). -/
structure Sa where
  key  : List Word
  salt : List Word
  ssci : Word
  /-- Next packet number (transmit) or lowest acceptable packet number (receive) (03 R107). -/
  pn   : Nat
  deriving DecidableEq, Repr

/-- A two-step transmit timestamp (03 R112). -/
structure Tsf where
  tag : Nat
  ns  : Nat
  sec : Nat
  frac : Nat
  deriving DecidableEq, Repr

/-- The ports, MACsec, timestamps and ingress admission. -/
structure Ports where
  /-- Charged cells, by 8 times the port plus the priority (03 R115). -/
  occ : List (Nat × Occ)
  /-- Cells charged to the shared pool, by frames and by saved originals (03 R115, 18 R476). -/
  sharedUsed : Nat
  /-- Cells held by packets of ports 64 to 122 (03 R114). -/
  hostUsed : Nat
  /-- XOFF raised, by 8 times the port plus the priority (03 R116). -/
  xoff : List (Nat × Bool)
  /-- XOFF cleared since the port's previous PFC frame, by the same key (03 R117). -/
  cleared : List (Nat × Bool)
  /-- A flow-control frame is queued, by port (03 R117). -/
  fcq : List (Nat × Bool)
  /-- The time the last flow-control frame of a port was sent (03 R117). -/
  fcAt : List (Nat × Nat)
  /-- The time at which a received pause ends, by 8 times the port plus the class (03 R97). -/
  paused : List (Nat × Nat)
  /-- The time an instance's last free context went, while it has none (03 R116). -/
  noCtx : List (Nat × Nat)
  /-- A local fault is detected on the receive side, by MAC (03 R98). -/
  lfault : List (Nat × Bool)
  /-- A lane group is retraining, by lane (03 R100). -/
  retrain : List (Nat × Bool)
  /-- Key memory of the associations, by 256 times the MAC plus 4 times the channel plus AN (03 R104). -/
  sa : List (Nat × Sa)
  /-- The transmit association of a channel, by 64 times the MAC plus the channel (03 R106). -/
  txAn : List (Nat × Nat)
  /-- A TX_SWITCH waiting for the next transmit frame boundary, by the same key (03 R106). -/
  txNext : List (Nat × Nat)
  /-- IEEE 802.1AE statistics of a channel: 32 words, by the same key; those of MAC m at large at 4,096 + m (03 R107). -/
  stats : List (Nat × List Word)
  /-- The timestamp FIFO of each MAC, oldest first, at most 64 (03 R112). -/
  tsf : List (Nat × List Tsf)
  /-- A timestamp was discarded from the full FIFO since the last pop, by MAC (03 R112). -/
  tsfOvf : List (Nat × Bool)
  /-- Cycles of SYNC10M_IN counted, modulo 10 (03 R113). -/
  sync10 : Nat
  /-- PPS_OUT is high (03 R113). -/
  ppsOut : Bool
  /-- Packets admitted and not yet parsed: first cells, by pipe, oldest first (01 R28). -/
  toParse : List (Nat × List Nat)
  /-- Packets parsed and not yet classified, by pipe, oldest first. -/
  toClass : List (Nat × List Nat)
  /-- Packets released and not yet judged by the traffic manager, oldest first (14 R382). -/
  toTm : List Nat
  /-- Frames taken from a queue, or recirculated, and not yet edited, oldest first (01 R28). -/
  toEdit : List EFrame
  /-- Frames for a network port that the governors have not judged, oldest first (01 R28). -/
  toGov : List EFrame
  /-- Frames past the governors and not yet transmitted, and frames for a host port not yet delivered, oldest first
  (01 R28). -/
  toTx : List EFrame
  deriving DecidableEq, Repr

/-- The states of an instance (16 R431). -/
inductive InsSt where
  | absent | creating | reset | run | resetting
  deriving DecidableEq, Repr


/-- A segment of a PROG section (02 R76). -/
structure ProgSeg where
  /-- CLUSTERS: bit k for cluster k. -/
  clusters : Nat
  /-- STORE_OFF. -/
  off  : Nat
  inst : Nat
  code : List Byte
  deriving DecidableEq, Repr

/-- The structure image in force (02). -/
structure Image where
  /-- A verified image is in force (01 R47). -/
  valid  : Bool
  /-- IMAGE_SERIAL of the running image (02 R56). -/
  serial : Nat
  posy   : List PosyRec
  mode   : List ModeRec
  inst   : List InstRec
  port   : List PortRec
  /-- UNITS of each cluster (02 R69). -/
  copa   : List (Nat × Nat)
  oflw   : List OflwRec
  qhie   : List QhieRec
  tgeo   : List TgeoRec
  prog   : List ProgSeg
  deriving DecidableEq, Repr

/-- No structure image. -/
def Image.none : Image :=
  { valid := false, serial := 0, posy := [], mode := [], inst := [], port := [], copa := [], oflw := [], qhie := [],
    tgeo := [], prog := [] }

/-- A valid entry of an exact-match or learning table (13 R350, R351). -/
structure TEnt where
  /-- The key bytes as one big-endian number. -/
  key  : Nat
  /-- HIT. -/
  hit  : Bool
  /-- STATIC of a learning entry. -/
  stat : Bool
  /-- STALE of a learning entry. -/
  stale : Bool
  /-- The stored result: USER, the result word, or 2^24 times PORT plus DATA. -/
  res  : Nat
  deriving DecidableEq, Repr

/-- A valid associative entry (13 R352). -/
structure AmEnt where
  value : Nat
  mask  : Nat
  res   : Nat
  deriving DecidableEq, Repr

/-- A learn-filter entry (13 R364). -/
structure FiltEnt where
  inst  : Nat
  table : Nat
  fid   : Nat
  mac   : Nat
  /-- P, the port last notified. -/
  port  : Nat
  /-- State MOVE_NOTIFIED. -/
  moved : Bool
  /-- Creation time. -/
  made  : Nat
  deriving DecidableEq, Repr

/-- Tables and learning (13). -/
structure Tables where
  /-- The valid entries of exact-match and learning tables, by 2^22 times (4 times the table plus the replica) plus
  4 times the bucket plus the way (13 R353). -/
  ent    : List (Nat × TEnt)
  /-- VICTIM of each table and replica, by 4 times the table plus the replica (13 R357). -/
  victim : List (Nat × Nat)
  /-- The valid entries of the associative memory by entry index (13 R352). -/
  am     : List (Nat × AmEnt)
  /-- Write count of each table (18 R494). -/
  writes : List (Nat × Nat)
  /-- The next bucket of each sweep in progress, by 4 times the table plus the replica (13 R366). -/
  sweep  : List (Nat × Nat)
  /-- The start of the latest sweep, by the same key (13 R366). -/
  swept  : List (Nat × Nat)
  /-- The learn filter of each pipe, earliest creation first (13 R364). -/
  filt   : List (Nat × List FiltEnt)
  /-- CONS of each learn queue the host consumes, by 4 times the instance plus the pipe (13 R367). -/
  cons   : List (Nat × Nat)
  deriving DecidableEq, Repr

/-- The indices of a host ring (16 R426, R430). -/
structure Ring where
  /-- The index the host owns: PROD of TX and RXB rings, CONS of RXC and MSG rings. -/
  host : Nat
  /-- The index the device owns. -/
  dev  : Nat
  /-- ERR: 0 running, else the code the ring stopped with. -/
  err  : Nat
  /-- The time its vector was last raised. -/
  irqAt : Option Nat
  /-- An interrupt waits for ITR_US. -/
  irqDue : Bool
  deriving DecidableEq, Repr

/-- A ring just enabled. -/
def Ring.init : Ring := { host := 0, dev := 0, err := 0, irqAt := none, irqDue := false }

/-- The host interface (16). -/
structure HostIf where
  /-- The rings, by 32 times the function plus the ring. -/
  rings : List (Nat × Ring)
  /-- The function whose TX descriptor was fetched last (16 R427). -/
  lastFn : Nat
  /-- The TX ring of each function served last. -/
  lastTx : List (Nat × Nat)
  /-- The words of the MSI-X tables and pending-bit arrays, by 65,536 times the function plus the offset from its table
  (20 R521). -/
  msix : List (Nat × Word)
  /-- The scans of packets in each pattern engine, oldest first: first cell, parse pass and bytes (04 R146). -/
  patQ : List (Nat × List (Nat × Nat × Nat))
  /-- The AER uncorrectable error status of each function (16 R430). -/
  aer : List (Nat × Word)
  deriving DecidableEq, Repr

/-- What has been taken from the governor buckets of a port (17 R468): a bucket is full at 0. -/
structure GovB where
  /-- FT in units of 10^-6 frame. -/
  ft   : Nat
  /-- SB in units of 10^-9 frame. -/
  sb   : Nat
  /-- SM in units of 10^-9 frame. -/
  sm   : Nat
  /-- BT in units of 1/8,000 byte. -/
  bt   : Nat
  /-- The time of the last refresh. -/
  last : Nat
  deriving DecidableEq, Repr

/-- An open debug session (17 R455). -/
structure Sess where
  rights : Nat
  mask   : Nat
  deriving DecidableEq, Repr

/-- An attestation request that waits for the steward (17 R456). -/
structure AttReq where
  /-- The requester's index. -/
  req   : Nat
  scope : Bool
  inst  : Nat
  nonce : List Byte
  deriving DecidableEq, Repr

/-- The block of the attestation key in use (17 R459). -/
structure AttBlk where
  block : Nat
  /-- Its next leaf. -/
  leaf  : Nat
  /-- The top-level signature of its public key (17 R457). -/
  top   : List Byte
  deriving DecidableEq, Repr

/-- A fuse programming operation in progress (17 R446). -/
structure FuseOp where
  /-- The key of the status register of its requester, FUS_STS or SEC_STS. -/
  sts  : Nat
  /-- The fuse bits it programs. -/
  bits : List Nat
  /-- The bit of FUS_FIELDSTS of a write-once field. -/
  once : Option Nat
  /-- It is a lifecycle transition. -/
  life : Bool
  deriving DecidableEq, Repr

/-- Security state (17). -/
structure Sec where
  /-- STEWARD_DIGEST and IMAGE_DIGEST (17 R452). -/
  digStw : List Byte
  digImg : List Byte
  /-- ARB_INDEX and ARB_VERSION of the running steward firmware and of the running full image (17 R450). -/
  arbStw : Nat × Nat
  arbImg : Nat × Nat
  /-- Attestation requests in order of arrival (17 R456). -/
  attQ : List AttReq
  /-- The block in use, in steward memory (17 R459). -/
  attBlk : Option AttBlk
  /-- A fuse programming operation in progress (17 R446). -/
  fuse : Option FuseOp
  /-- The open session of each requester (17 R455). -/
  sess : List (Nat × Sess)
  /-- The governor buckets by network port (17 R468). -/
  gov : List (Nat × GovB)
  /-- The present 1 ms window of the FAB count (17 R469). -/
  govWin : Nat
  deriving DecidableEq, Repr

/-- A line request in the DRAM controller (15 R402, R405). -/
structure DReq where
  /-- Its place in order of arrival. -/
  seq  : Nat
  port : Nat
  inst : Nat
  /-- Byte address D (15 R401). -/
  addr : Nat
  len  : Nat
  /-- The bytes of a write; none for a read. -/
  data : Option (List Byte)
  at_  : Nat
  /-- The column command of a read has been issued. -/
  issued : Bool
  /-- It was in the hold buffer (15 R417). -/
  held : Bool
  deriving DecidableEq, Repr

/-- An open bank: its row and the time of its last command (15 R406). -/
structure DBank where
  row  : Nat
  last : Nat
  deriving DecidableEq, Repr

/-- A subchannel (15). A bank's key is 32 times its rank, plus 4 times its group, plus its number. -/
structure DSub where
  /-- Pending reads, and writes that have not entered the write queue, in order of arrival. -/
  q      : List DReq
  /-- The write queue, at most 64 (15 R405). -/
  wq     : List DReq
  /-- The hold buffer, at most 1,024 (15 R417). -/
  hold   : List DReq
  /-- Requests that wait at their ports for room (15 R417). -/
  bp     : List DReq
  /-- WDRAIN (15 R407). -/
  wdrain : Bool
  /-- The open banks (15 R406). -/
  banks  : List (Nat × DBank)
  /-- The rolling accumulated activation count of each bank (15 R410). -/
  raa    : List (Nat × Nat)
  /-- The row tracker of each bank: rows with the activation count of each master (15 R411). -/
  trk    : List (Nat × List (Nat × List (Nat × Nat)))
  /-- The throttles, by 512 times the bank plus the master: window ends left, and its previous activation (15 R411). -/
  thro   : List (Nat × (Nat × Nat))
  /-- The commands issued last, newest first, at most 32: the request of a column command (15 R412). -/
  hist   : List (Option DReq)
  /-- Refreshes due, by rank (15 R409). -/
  refDue : List (Nat × Nat)
  /-- tREFI is halved, by rank (15 R409). -/
  half   : List (Nat × Bool)
  /-- The start of the refresh window (15 R411). -/
  winAt  : Nat
  /-- 0 none; 1 ALERT_n low, commands stopped; 2 CA retraining (15 R412, R413). -/
  alert  : Nat
  /-- Alerts in the present sequence (15 R413). -/
  alerts : Nat
  /-- The requests of the alert window, in their original order (15 R412). -/
  rwin   : List DReq
  /-- A centring slice is in progress (15 R417). -/
  slice  : Bool
  /-- The end of the last slice, and the slices of the present retraining (15 R417). -/
  sliceEnd : Nat
  slices : Nat
  /-- The time from which RETRAIN_MS counts to the next retraining (15 R417). -/
  cenAt  : Nat
  /-- The write-DQS delay of each device in steps moved, by 32 times the rank plus the device (15 R416). -/
  dqs    : List (Nat × Int)
  deriving DecidableEq, Repr

/-- A subchannel with nothing in it. -/
def DSub.init : DSub :=
  { q := [], wq := [], hold := [], bp := [], wdrain := false, banks := [], raa := [], trk := [], thro := [], hist := [],
    refDue := [], half := [], winAt := 0, alert := 0, alerts := 0, rwin := [], slice := false, sliceEnd := 0, slices := 0,
    cenAt := 0, dqs := [] }

/-- A read of a port of the DRAM controller: its request, whether its answer is known, and its status, 0 clean, 1 POISON,
2 DENIED, and data (15 R405). -/
structure DRead where
  seq   : Nat
  known : Bool
  sts   : Nat
  bytes : List Byte
  deriving DecidableEq, Repr

/-- The DRAM controller (15). Its counters and channel status are among the registers. -/
structure Dmc where
  sub  : List (Nat × DSub)
  /-- The next request number. -/
  seq  : Nat
  /-- The outstanding reads of each port in order of issue (15 R405). -/
  outr : List (Nat × List DRead)
  /-- The reads answered to each port, oldest first. -/
  back : List (Nat × List DRead)
  /-- Lines with the reserved syndrome, by address over 64: they read as POISON (15 R415). -/
  bad  : List (Nat × Bool)
  /-- RAAIMT and RAAMMT of the devices (15 R410). -/
  imt  : Nat
  mmt  : Nat
  /-- The level a channel is changing to (15 R419, R420). -/
  lvl  : List (Nat × Nat)
  deriving DecidableEq, Repr

/-- A controller with nothing in it. -/
def Dmc.init : Dmc := { sub := [], seq := 0, outr := [], back := [], bad := [], imt := 0, mmt := 0, lvl := [] }

/-- A Function Abort in progress (16 R439). -/
structure FabRec where
  /-- KIND and COUNT of its result (16 R438). -/
  kind  : Nat
  count : Nat
  deriving DecidableEq, Repr

/-- A fault record that waits for the steward (19 R513). -/
structure StwRec where
  tid  : Nat
  pc   : Nat
  inst : Nat
  /-- The thread is HELD until the steward drops its packet and restarts it (06 R201). -/
  drop : Bool
  deriving DecidableEq, Repr

/-- What the steward and the instance hardware have in progress (16, 19 R513). -/
structure Ctl where
  /-- The instance command in progress: the requester's index, OP and instance (16 R432). -/
  cur   : Option (Nat × Nat × Nat)
  /-- The time each instance's reset was accepted (16 R436). -/
  at_   : List (Nat × Nat)
  /-- What follows an instance's reset: 1 it becomes ABSENT (16 R432), 2 it is started (16 R440). -/
  after : List (Nat × Nat)
  /-- An FLR of a function runs (16 R440). -/
  flr   : List (Nat × Bool)
  /-- The Function Abort of each requester in progress (16 R439). -/
  fab   : List (Nat × FabRec)
  /-- Commands to INS, SEC, FUS and LCK_SCMD held while STW_UP is 0, oldest first (19 R513). -/
  held  : List Instr
  /-- Fault records that wait for the steward, at most 64 (19 R513). -/
  stwQ  : List StwRec
  /-- Cores that have left their posy and wait for their reshape point; true: the core returns to unused (02 R87). -/
  moves : List (Nat × Bool)
  /-- A MSG of the mailbox waits for the firmware's reply (20 R531). -/
  msg   : Bool
  /-- What a TAP instruction selects: 0 BYPASS, 1 EXTEST, 2 EXTEST_PULSE, 3 EXTEST_TRAIN (17 R455). -/
  tap   : Nat
  deriving DecidableEq, Repr

/-- The load of a partial image (20 R532). -/
structure Load where
  /-- 0 none, 1 the image is being copied, 2 its sections commit, 3 abandoned by a steward reset (20 R533). -/
  phase : Nat
  /-- The staged copy (02 R81). -/
  bytes : List Byte
  /-- STW_MBLEN of the load. -/
  len   : Nat
  /-- The types of the sections that have yet to commit, ascending (02 R86). -/
  todo  : List Nat
  /-- The time at which the next section to commit began to wait (04 R140). -/
  since : Nat
  /-- The epoch slots and a graph slot are kept for the load (04 R140). -/
  kept  : Bool
  /-- A section has begun to commit (20 R533). -/
  begun : Bool
  deriving DecidableEq, Repr

/-- The boot ROM and the resets (19). -/
structure Boot where
  /-- 0 held in cold reset; 1 a warm reset has been taken and the flashes are to be read; 2 the images of a flash are staged;
  3 booted; 4 the boot failed; 5 internal scan, out of traffic until a cold reset (17 R455). -/
  phase  : Nat
  /-- The images of the flash in use and of those yet to be tried: flash 0 or 1, steward firmware, structure image; none for a flash
  that does not answer (19 R508, R510). -/
  staged : List (Nat × Option (List Byte × List Byte))
  /-- The time of the rise of PORST_N or of the warm reset: BOOT_MS counts from it (19 R517). -/
  t0     : Nat
  /-- DRAM training has ended: some true it succeeded (15 R400). -/
  trained : Option Bool
  /-- The flash that booted (19 R513). -/
  flash  : Nat
  /-- A shutdown holds the device in reset (20 R530). -/
  hot    : Bool
  /-- The previous sample was at or above 155 degrees (20 R530). -/
  hot1   : Bool
  /-- The cause of a reset that waits for a fuse operation (19 R506). -/
  wait   : Option Nat
  deriving DecidableEq, Repr

/-- The heartbeats (19 R515, R516). -/
structure Hb where
  /-- The time of the last KICK. -/
  kick   : Option Nat
  /-- The time from which the device has been healthy. -/
  since  : Option Nat
  /-- MATE_HB_OUT and HEALTHY toggle. -/
  run    : Bool
  /-- The time of the last edge on MATE_HB_IN, and the consecutive edges up to it that came within 600 ns of the one before. -/
  edgeAt : Option Nat
  edges  : Nat
  deriving DecidableEq, Repr

/-- Nothing in progress. -/
def Ctl.init : Ctl :=
  { cur := none, at_ := [], after := [], flr := [], fab := [], held := [], stwQ := [],
    moves := [], msg := false, tap := 0 }

/-- The model's faults: none. Every command of this device has an effect or none; what the device itself reports is in
its state. -/
inductive Fault where
  deriving DecidableEq, Repr

/-- The model's refusals. -/
inductive Refusal where
  /-- A command whose meaning is not written; raised by an arm of Dispatch.lean alone. Safe: nothing follows. -/
  | notModelled (mnemonic : String)
  deriving DecidableEq, Repr

/-- The state of the device: every register, memory, queue, buffer and mode of the spec, and the commands that wait. -/
structure State where
  /-- The registers held as words, and the block headers (00 R10, 01 R49). -/
  regs : RegFile
  /-- The Primrose journal and the replay engine (18). -/
  jnl : Journal
  /-- The MRAM (18 R488). -/
  mram : Mram
  /-- The FAB nanosecond count and the PTP counter (03 R108, 08 R258). -/
  clk : Clocks
  /-- The Petal cores, their threads and memories (06, 07). -/
  cores : Cores
  /-- The shared coprocessor units (10). -/
  cpx : Cpx
  /-- The lock unit, atomic operations and program scratch (11). -/
  lck : Locks
  /-- The buffer pools (12). -/
  bpm : Pools
  /-- The dispatcher, the matching store, ordered release and the packet buffer (05). -/
  dsp : Dsp
  /-- The ports, MACsec, timestamps, ingress admission and the packets between stages (03, 01 R28). -/
  port : Ports
  /-- Parsing, classification and editing state (04). -/
  rules : Rules
  /-- Tables and learning (13). -/
  tbl : Tables
  /-- The host interface (16). -/
  hif : HostIf
  /-- The traffic manager (14). -/
  tm : Tm
  /-- Sessions, attestation, fuse operations and governor buckets (17). -/
  sec : Sec
  /-- The structure image in force (02). -/
  img : Image
  /-- The state of each instance; one not listed is ABSENT (16 R431). -/
  insSt : List (Nat × InsSt)
  /-- What the steward and the instance hardware have in progress (16, 19 R513). -/
  ctl : Ctl
  /-- The load of a partial image (20 R532). -/
  load : Load
  /-- The boot ROM and the resets (19). -/
  boot : Boot
  /-- The heartbeats (19 R515). -/
  hb : Hb
  /-- Device DRAM: its bytes (15). -/
  dram : Mem
  /-- The DRAM controller (15). -/
  dmc : Dmc
  /-- What the device has sent out, oldest first. -/
  outs : List Out
  /-- The model's own counter of draws: each draw of a free value advances it. -/
  free : Nat
  /-- The commands waiting, first in, first out. -/
  pending : List Instr
  deriving DecidableEq, Repr

/-- `RegFile` after a cold reset. -/
def RegFile.init : RegFile :=
  { vals := [], shadow := [], blk := [] }

/-- `Journal` after a cold reset. -/
def Journal.init : Journal :=
  { st := .idle, staged := [], pos := 0, jseq := 0, itemSeq := 0, lastPkt := [], lostPkt := 0, lostAll := 0,
    trigAt := 0, trigEntry := 0, capBits := 0, capAt := 0, rp := .idle, rpPos := 0, rpDiv := (0, 0, 0, 0),
    rpInputs := [], rpJseq := 0 }

/-- `Mram` after a cold reset. -/
def Mram.init : Mram :=
  { map := [], writes := [], log := [], logNext := 0, logWrapped := false, logPend := [], trig := [],
    trigLast := none, thist := [], life := [], lms := [] }

/-- `Clocks` after a cold reset. -/
def Clocks.init : Clocks :=
  { fab := 0, sec := 0, ns := 0, frac := 0, jumpAt := 0 }

/-- `Cores` after a cold reset. -/
def Cores.init : Cores :=
  { thr := [], core := [], mem := [], tags := [], poison := [], istore := [], badLine := [], commits := [],
    seq := 0 }

/-- `Cpx` after a cold reset. -/
def Cpx.init : Cpx :=
  { ctx := [], keys := [], keyGen := [] }

/-- `Locks` after a cold reset. -/
def Locks.init : Locks :=
  { lk := [], stwWait := none, atoms := [], scratch := [] }

/-- `Pools` after a cold reset. -/
def Pools.init : Pools :=
  { pool := [], area := [], frees := [] }

/-- `Dsp` after a cold reset. -/
def Dsp.init : Dsp :=
  { items := [], gens := [], ctxs := [], flows := [], lastFlow := 0, ready := [], cur := [], wait := [],
    waitRot := [], lastInst := 0, dl := [], dlGen := [], qdFired := [], pkts := [] }

/-- `Ports` after a cold reset. -/
def Ports.init : Ports :=
  { occ := [], sharedUsed := 0, hostUsed := 0, xoff := [], cleared := [], fcq := [], fcAt := [], paused := [],
    noCtx := [], lfault := [], retrain := [], sa := [], txAn := [], txNext := [], stats := [], tsf := [],
    tsfOvf := [], sync10 := 0, ppsOut := false, toParse := [], toClass := [], toTm := [], toEdit := [],
    toGov := [], toTx := [] }

/-- `Rules` after a cold reset. -/
def Rules.init : Rules :=
  { graphs := [], graphNow := 0, epochs := [], frags := [], pols := [], acts := [], tmpls := [] }

/-- `Tables` after a cold reset. -/
def Tables.init : Tables :=
  { ent := [], victim := [], am := [], writes := [], sweep := [], swept := [], filt := [], cons := [] }

/-- `HostIf` after a cold reset. -/
def HostIf.init : HostIf :=
  { rings := [], lastFn := 0, lastTx := [], msix := [], patQ := [], aer := [] }

/-- `Sec` after a cold reset. -/
def Sec.init : Sec :=
  { digStw := [], digImg := [], arbStw := (0, 0), arbImg := (0, 0), attQ := [], attBlk := none, fuse := none,
    sess := [], gov := [], govWin := 0 }

/-- `Load` after a cold reset. -/
def Load.init : Load :=
  { phase := 0, bytes := [], len := 0, todo := [], since := 0, kept := false, begun := false }

/-- `Boot` after a cold reset. -/
def Boot.init : Boot :=
  { phase := 0, staged := [], t0 := 0, trained := none, flash := 0, hot := false, hot1 := false, wait := none }

/-- `Hb` after a cold reset. -/
def Hb.init : Hb :=
  { kick := none, since := none, run := false, edgeAt := none, edges := 0 }

/-- The device right after reset (19 R505): a cold reset is taken and the boot has not run. Every block is in RESET, no structure
image is in force, every queue and memory is empty, every register holds its reset word, and every register for which the spec
states none holds 0 (log entry 3). -/
def State.reset : State :=
  { regs := RegFile.init, jnl := Journal.init, mram := Mram.init, clk := Clocks.init, cores := Cores.init,
    cpx := Cpx.init, lck := Locks.init, bpm := Pools.init, dsp := Dsp.init, port := Ports.init,
    rules := Rules.init, tbl := Tables.init, hif := HostIf.init, tm := Tm.init, sec := Sec.init, img := Image.none,
    insSt := [], ctl := Ctl.init, load := Load.init, boot := Boot.init, hb := Hb.init, dram := [], dmc := Dmc.init,
    outs := [], free := 0, pending := [] }

end Sys2Proof.Machine
end

