-- ==== Sys2Proof/Machine/Regs.lean ====
section
/-! DEFINITION. The block map of BAR0 (20_register_map.md R519) and the reading and writing of register words: every
register has this one home. -/

namespace Sys2Proof.Machine

/-- What a command's meaning answers. -/
abbrev Result := Host.Outcome State Fault Refusal

/-- The offset at which block `b` starts (R519); index 30 is the end of BAR0. -/
def blkBase : List Nat :=
  [0x0, 0x100000, 0x180000, 0x200000, 0x280000, 0x300000, 0x380000, 0x400000, 0x480000, 0x800000, 0xC00000, 0xE00000,
   0x1000000, 0x1400000, 0x1800000, 0x1C00000, 0x2000000, 0x2400000, 0x2800000, 0x2C00000, 0x3000000, 0x3200000,
   0x3400000, 0x3800000, 0x3A00000, 0x3C00000, 0x3D00000, 0x3E00000, 0x3F00000, 0x3F80000, 0x4000000]

/-- The block that holds a BAR0 offset (R519). -/
def blkOf (off : Nat) : Nat := (blkBase.countP (fun b => decide (b ≤ off))) - 1

/-- The table of the registers of each block. -/
def blkRegs : Nat → List RegDesc
  | 0 => glbRegs
  | 1 => clkRegs
  | 2 => rstRegs
  | 3 => fusRegs
  | 4 => secRegs
  | 5 => mrmRegs
  | 6 => ercRegs
  | 7 => jnlRegs
  | 8 => stwRegs
  | 9 => prtRegs
  | 10 => mscRegs
  | 11 => ptpRegs
  | 12 => ingRegs
  | 13 => prsRegs
  | 14 => clsRegs
  | 15 => patRegs
  | 16 => dspRegs
  | 17 => ordRegs
  | 18 => coreRegs
  | 19 => cpxRegs
  | 20 => lckRegs
  | 21 => bpmRegs
  | 22 => tblRegs
  | 23 => lrnRegs
  | 24 => tmRegs
  | 25 => egrRegs
  | 26 => govRegs
  | 27 => dmcRegs
  | 28 => hifRegs
  | 29 => insRegs
  | _ => []

/-- The row of the register at an offset, if the offset holds one. -/
def regRow (off : Nat) : Option RegDesc := findReg (blkRegs (blkOf off)) off

/-- The index of a requester in the per-requester copies (R520). -/
def reqIdx : Req → Nat
  | .pf => 0
  | .vf v => v.val + 1
  | .steward => 33
  | .jtag => 34

/-- The key of a register word: its offset and, where it is held separately for each requester, the requester. -/
def reqKey (r : Req) (off : Nat) : Nat := off + 67108864 * reqIdx r

/-- The reset word of the register at an offset. -/
def resetWordAt (off : Nat) : Word :=
  match regRow off with
  | some d => d.resetWord
  | none => 0

/-- The current word of a register. -/
def rv (s : State) (off : Nat) : Word :=
  match mfind s.regs.vals off with
  | some w => w
  | none => resetWordAt (off % 67108864)

/-- The field [hi:lo] of a register. -/
def rf (s : State) (off hi lo : Nat) : Nat := bits (rv s off) hi lo

/-- One bit of a register. -/
def rb (s : State) (off n : Nat) : Bool := bit (rv s off) n

/-- What a read of an H-class register shows: the shadow value last written (00 R16). -/
def rShow (s : State) (off : Nat) : Word :=
  match mfind s.regs.shadow off with
  | some w => w
  | none => rv s off

/-- Set the word of a register. -/
def rset (s : State) (off : Nat) (w : Word) : State :=
  { s with regs := { s.regs with vals := mins s.regs.vals off w } }

/-- Set the field [hi:lo] of a register. -/
def rsetF (s : State) (off hi lo v : Nat) : State := rset s off (setBits (rv s off) hi lo v)

/-- The registers of `n` bytes from `a` return to their reset words. -/
def regsReset (a n : Nat) (s : State) : State :=
  { s with regs := { s.regs with vals := mclear s.regs.vals a n, shadow := mclear s.regs.shadow a n } }

/-- Add to a 32-bit counter, which stays at all ones (R19). -/
def cntAdd (off n : Nat) (s : State) : State := rset s off (w32 (satAdd 32 (rv s off).toNat n))

/-- Count one event. -/
def cnt (off : Nat) (s : State) : State := cntAdd off 1 s

/-- The shadow value of an H-class register takes effect (00 R16). -/
def hCommit (off : Nat) (s : State) : State :=
  match mfind s.regs.shadow off with
  | some w => { s with regs := { s.regs with vals := mins s.regs.vals off w, shadow := mdel s.regs.shadow off } }
  | none => s

/-- An access error of a requester: GLB_ACCERR holds the first, GLB_ACCCNT counts the later ones (20 R526). -/
def accErr (r : Req) (cause off : Nat) (s : State) : State :=
  let a := reqKey r 0x1010
  if rb s a 31 then cnt (reqKey r 0x1014) s
  else rset s a (w32 (2 ^ 31 + cause * 2 ^ 28 + off / 4 % 2 ^ 24 * 4))

/-- The key of a block copy's header. -/
def blkKey (b c : Nat) : Nat := b * 64 + c

/-- The header of copy `c` of block `b`. -/
def blkGet (s : State) (b c : Nat) : BlkCopy := mget s.regs.blk (blkKey b c) BlkCopy.init

/-- Change the header of copy `c` of block `b`. -/
def blkMod (s : State) (b c : Nat) (f : BlkCopy → BlkCopy) : State :=
  { s with regs := { s.regs with blk := mmod s.regs.blk (blkKey b c) BlkCopy.init f } }

/-- STATE of a block copy (01 R50). JNL is idle while the journal is IDLE or FROZEN and the replay engine is IDLE (18 R491). -/
def blkState (s : State) (b c : Nat) : BlkSt :=
  let k := blkGet s b c
  if b = 7 && decide (k.st ≠ .reset) then
    if (decide (s.jnl.st = .idle) || decide (s.jnl.st = .frozen)) && decide (s.jnl.rp = .idle) then .idle
    else if k.idleReq then .draining else .run
  else k.st

/-- Whether a block copy is in reset or idle (R50). -/
def blkIdle (s : State) (b c : Nat) : Bool :=
  match blkState s b c with
  | .reset => true
  | .idle => true
  | _ => false

/-- A block copy is in RUN: an idle data-path block's stage stops, and one that drains takes no new operation (01 R49, R50). -/
def running (s : State) (b c : Nat) : Bool := decide (blkState s b c = .run)

/-- A block copy is in RUN or completes what is in flight (01 R49). -/
def active (s : State) (b c : Nat) : Bool := running s b c || decide (blkState s b c = .draining)

/-- A rejected write sets CFG_REJECT of its block copy (R15). -/
def cfgReject (b c : Nat) (s : State) : State := blkMod s b c (fun k => { k with cfgReject := true })

/-- Append to what the device sends out. -/
def emit (o : Out) (s : State) : State := { s with outs := s.outs ++ [o] }

/-- Draw a free 32-bit value: nothing constrains it. -/
def drawWord (s : State) : Word × State := (Config.freeWord s.free, { s with free := s.free + 1 })

/-- Make a free choice among `n`. -/
def drawPick (n : Nat) (s : State) : Nat × State := (Config.pick s.free % n, { s with free := s.free + 1 })

end Sys2Proof.Machine
end

