-- ==== Sys2Proof/Machine/JournalOps.lean ====
section
/-! DEFINITION. Writing records to the Primrose journal and triggering it (18_resilience_replay.md R491 to R498): the
operations other units share. -/

namespace Sys2Proof.Machine

/-- JNL_CNT[k] (18 R503). -/
def jnlCnt (k : Nat) : Nat := 0x401100 + 4 * k

/-- The journal is in RUN or POST, in which it writes records (18 R491). -/
def jnlOn (s : State) : Bool :=
  match s.jnl.st with
  | .run => true
  | .post => true
  | _ => false

/-- Instance `i` is recorded: its bit in JNL_INSTMASK is 1 (18 R491). -/
def jnlInst (s : State) (i : Nat) : Bool := rb s 0x40800C i

/-- Words the staging buffer of 256 KiB holds (18 R492). -/
def jnlStageWords : Nat := 32768

/-- Put whole words at the next ring positions. -/
def jnlStage (ws : List Nat) (s : State) : State :=
  ws.foldl (fun s w => { s with jnl := { s.jnl with staged := s.jnl.staged ++ [(s.jnl.pos, w)], pos := s.jnl.pos + 1 } }) s

/-- The words of a LOST record (18 R496). -/
def jnlLostWords (s : State) : List Nat :=
  [3 * 2 ^ 62 + 3 * 2 ^ 56 + 2 ^ 53, s.jnl.lostPkt % 2 ^ 32 * 2 ^ 32 + s.jnl.lostAll % 2 ^ 32]

/-- Write one record whole, or count it lost when the staging buffer is full; when space returns a LOST record is
written first (18 R492). `pkt`: it is a PACKET record. Answers whether it was written. -/
def jnlPut (pkt : Bool) (ws : List Nat) (s : State) : State × Bool :=
  let pre := if s.jnl.lostAll = 0 then [] else jnlLostWords s
  if s.jnl.staged.length + pre.length + ws.length > jnlStageWords then
    (cnt (jnlCnt 4) { s with jnl := { s.jnl with
        lostPkt := s.jnl.lostPkt + b2n pkt, lostAll := s.jnl.lostAll + 1 } }, false)
  else
    (jnlStage (pre ++ ws) { s with jnl := { s.jnl with lostPkt := 0, lostAll := 0 } }, true)

/-- A CONTROL record of kind `k` with its following words (18 R496). -/
def jnlControl (k : Nat) (ws : List Nat) (s : State) : State :=
  if jnlOn s then (jnlPut false ((3 * 2 ^ 62 + k * 2 ^ 56 + ws.length * 2 ^ 53) :: ws) s).1 else s

/-- The 48-bit FAB nanosecond time. -/
def fab48 (s : State) : Nat := s.clk.fab % 2 ^ 48

/-- Who an INPUT record names: the thread, and the item it holds (18 R494). -/
structure JWho where
  core : Nat
  thread : Nat
  pass : Nat
  exec : Nat
  inst : Nat
  nonpkt : Bool
  seq : Nat
  deriving DecidableEq, Repr

/-- An INPUT record of kind `k` (18 R494). Answers whether it was recorded. -/
def jnlInputB (k : Nat) (w : JWho) (ws : List Nat) (s : State) : State × Bool :=
  if jnlOn s && jnlInst s w.inst then
    let r := jnlPut false ((1 * 2 ^ 62 + k * 2 ^ 56 + w.core % 256 * 2 ^ 48 + w.thread % 8 * 2 ^ 45 +
      ws.length * 2 ^ 42 + w.pass % 4 * 2 ^ 40 + w.exec % 4 * 2 ^ 38 + w.inst % 32 * 2 ^ 33 + b2n w.nonpkt * 2 ^ 32 +
      w.seq % 2 ^ 32) :: ws) s
    if r.2 then (cnt (jnlCnt 1) r.1, true) else r
  else (s, false)

/-- An INPUT record of kind `k` (18 R494). -/
def jnlInput (k : Nat) (w : JWho) (ws : List Nat) (s : State) : State := (jnlInputB k w ws s).1

/-- A TIMEBASE record for a pipe (18 R496). -/
def jnlTimebase (pipe : Nat) (s : State) : State := jnlControl 1 [pipe % 4 * 2 ^ 48 + fab48 s] s

/-- Write a trigger-index entry into the ring of 64 (18 R498): it goes after the entry written last. -/
def trigWrite (ws : List Word) (s : State) : State :=
  let e := match s.mram.trigLast with
    | none => 0
    | some k => (k + 1) % 64
  cnt (0x301100 + 4 * 5)
    { s with mram := { s.mram with trig := mins s.mram.trig e ws, trigLast := some e },
             jnl := { s.jnl with trigEntry := e } }

/-- The words of a trigger-index entry (18 R498). -/
def trigWords (lost : Bool) (src reason : Nat) (data : Word) (pos fin : Nat) (s : State) : List Word :=
  [w32 (2 ^ 31 + b2n lost * 2 ^ 30 + src % 16 * 2 ^ 26 + reason % 256 * 2 ^ 16), data, w32 pos, w32 (pos / 2 ^ 32),
   w32 fin, w32 (fin / 2 ^ 32), rv s 0x408004, rv s 0x408008]

/-- The ring's size in 8-byte words (18 R491). -/
def ringWords (s : State) : Nat := rf s 0x408008 15 0 * 131072

/-- A trigger of source `src` (18 R497): accepted only in RUN with its enable set; an accepted one writes a TRIGGER
record, enters POST and writes a trigger-index entry (18 R498), a refused one is counted. Answers whether accepted. -/
def jnlTrigger (src reason : Nat) (data : Word) (s : State) : State × Bool :=
  if decide (s.jnl.st = .run) && rb s 0x408010 src then
    let p := s.jnl.pos % ringWords s
    let s := jnlControl 2 [src % 16 * 256 + reason % 256, data.toNat * 2 ^ 32 + s.clk.fab % 2 ^ 32] s
    let s := trigWrite (trigWords false src reason data p p s) s
    let s := { s with jnl := { s.jnl with st := .post, trigAt := s.clk.fab } }
    let s := rset s 0x401010 (w32 (2 ^ 31 + s.jnl.trigEntry * 2 ^ 16 + src % 16))
    (cnt (jnlCnt 5) s, true)
  else (cnt (jnlCnt 6) s, false)

/-- The MASKED trigger of an error-collector record of severity MIN_SEV or more (18 R497). The spec states no REASON
and no data word for it: both are free values. -/
def jnlMasked (sev : Nat) (s : State) : State :=
  if rf s 0x408010 9 8 ≤ sev then
    let (a, s) := drawWord s
    let (b, s) := drawWord s
    (jnlTrigger 0 (bits a 7 0) b s).1
  else s

/-- Move one staged word to the ring in DRAM (18 R491, R492). -/
def jnlDrain1 (s : State) : State :=
  match s.jnl.staged with
  | [] => s
  | (p, w) :: t =>
    let a := rf s 0x408004 16 0 * 1048576 + 8 * (p % ringWords s)
    let s := { s with dram := memWrN s.dram 0 a (leBytes 8 w), jnl := { s.jnl with staged := t } }
    let n := (p + 1) % ringWords s
    rset (rset s 0x401004 (w32 n)) 0x401008 (w32 (n / 2 ^ 32))

/-- Drain the staging buffer, `n` words. -/
def jnlDrain : Nat → State → State
  | 0, s => s
  | n + 1, s => jnlDrain n (jnlDrain1 s)

end Sys2Proof.Machine
end

