-- ==== Sys2Proof/Machine/Erc.lean ====
section
/-! DEFINITION. The error collector (18_resilience_replay.md R482 to R486): filling a record, notifying, acknowledging. -/

namespace Sys2Proof.Machine

/-- ERC_REC[s][w] of source code 0x80 + s (18 R502). -/
def ercRec (src w : Nat) : Nat := 0x381000 + 0x20 * (src - 0x80) + 4 * w

/-- ERC_PEND[j] (18 R502). -/
def ercPend (src : Nat) : Nat := 0x382000 + 4 * ((src - 0x80) / 32)

/-- The six words of a record as one list. -/
def ercWords (src : Nat) (s : State) : List Word := (List.range 6).map (fun w => rv s (ercRec src w))

/-- A word of a function's MSI-X structures, by its offset from the table; a vector is masked after reset, as PCI Express
has it (PRESUMED). -/
def msixWord (s : State) (f off : Nat) : Word :=
  match mfind s.hif.msix (f * 65536 + off) with
  | some w => w
  | none => if off < 8192 && off % 16 = 12 then 1 else 0

/-- Set a word of a function's MSI-X structures. -/
def msixSet (f off : Nat) (w : Word) (s : State) : State :=
  { s with hif := { s.hif with msix := mins s.hif.msix (f * 65536 + off) w } }

/-- A function's MSI-X vector is raised: sent, or, while its table entry masks it, left in the pending-bit array
(20 R521). -/
def raiseMsix (func vector : Nat) (s : State) : State :=
  if bit (msixWord s func (16 * vector + 12)) 0 then
    let o := 8192 + vector / 32 * 4
    msixSet func o (setBit (msixWord s func o) (vector % 32) true) s
  else emit (.msix func vector) s

/-- The device ceases to be healthy: the heartbeat outputs stop at the level they hold (19 R515). -/
def hbStop (s : State) : State := { s with hb := { s.hb with run := false, since := none } }

/-- Notify: the source becomes pending, the record goes to the steward's error service, and at ALERT_SEV or more the
physical function's vector is raised (18 R485); a record of severity 1 or more is due for the fault log (18 R486); a pending
severity 3 ends the device's health (19 R515). -/
def ercNotify (src maxsev : Nat) (s : State) : State :=
  let s := rset s (ercPend src) (setBit (rv s (ercPend src)) ((src - 0x80) % 32) true)
  let s := if 1 ≤ maxsev then
      { s with mram := { s.mram with logPend := s.mram.logPend ++ [ercWords src s ++ [w32 src]] } }
    else s
  let s := if rf s 0x388000 25 24 ≤ maxsev then raiseMsix 0 (rf s 0x388000 8 0) s else s
  let s := if maxsev = 3 then hbStop s else s
  jnlMasked maxsev s

/-- The first error of a source fills its record entirely (18 R483, R484). -/
def ercFill (src kind sev unit loc : Nat) (inst : Option Nat) (s : State) : State :=
  let i := match inst with
    | some i => 2 ^ 24 + i % 32 * 2 ^ 16
    | none => 0
  let s := rset s (ercRec src 0) (w32 (2 ^ 31 + sev % 4 * 2 ^ 28 + sev % 4 * 2 ^ 26 + i))
  let s := rset s (ercRec src 1) (w32 (kind % 256 * 2 ^ 24 + unit % 2 ^ 24))
  let s := rset s (ercRec src 2) (w32 loc)
  let s := rset s (ercRec src 3) (w32 (loc / 2 ^ 32))
  let s := rset s (ercRec src 4) (w32 s.clk.ns)
  rset s (ercRec src 5) (w32 s.clk.sec)

/-- An error reaches the collector (18 R484): a record that is not VALID is filled; a VALID one counts, and a severity
above MAXSEV raises MAXSEV and notifies again. -/
def ercReport (src kind sev unit loc : Nat) (inst : Option Nat) (s : State) : State :=
  let s := cnt (0x382100 + 4 * (src - 0x80)) s
  let w0 := rv s (ercRec src 0)
  if bit w0 31 then
    let w1 := setBit (setBits w0 15 0 (satAdd 16 (bits w0 15 0) 1)) 30 true
    if bits w0 27 26 < sev then
      ercNotify src sev (rset s (ercRec src 0) (setBits w1 27 26 sev))
    else rset s (ercRec src 0) w1
  else ercNotify src sev (ercFill src kind sev unit loc inst s)

/-- Acknowledge one source: PEND and the record's VALID, MULTI, COUNT and MAXSEV clear (18 R485). -/
def ercAck1 (src : Nat) (s : State) : State :=
  let s := rset s (ercPend src) (setBit (rv s (ercPend src)) ((src - 0x80) % 32) false)
  let w := rv s (ercRec src 0)
  rset s (ercRec src 0) (setBits (setBits (setBits w 31 30 0) 15 0 0) 27 26 0)

/-- ALERT_N is asserted for the error collector: a pending source has MAXSEV at or above ALERT_SEV (18 R485). -/
def ercAlert (s : State) : Bool :=
  (List.range 64).any (fun k =>
    rb s (ercPend (0x80 + k)) (k % 32) && decide (rf s 0x388000 25 24 ≤ rf s (ercRec (0x80 + k) 0) 27 26))

/-- The device is healthy (19 R515): in traffic, a KICK within KICK_MS, no pending source of severity 3, no warm reset. -/
def healthy (s : State) : Bool :=
  rb s 0x181000 31 && decide (s.boot.phase = 3) &&
  (match s.hb.kick with
    | some k => decide (s.clk.fab < k + rf s 0x188000 9 0 * 1000000)
    | none => false) &&
  !(List.range 64).any (fun k => rb s (ercPend (0x80 + k)) (k % 32) && decide (rf s (ercRec (0x80 + k) 0) 27 26 = 3))

/-- Health may have returned: the outputs resume 1 ms from now (19 R515). -/
def hbCheck (s : State) : State :=
  if !healthy s then hbStop s
  else match s.hb.since with
    | some _ => s
    | none => { s with hb := { s.hb with since := some s.clk.fab } }

/-- ALERT_N is asserted: by the error collector, by a governor trip (17 R469), or by MATE_LOST when MATE_ALERT is 1 (19 R516). -/
def alertN (s : State) : Bool :=
  ercAlert s || (List.range 64).any (fun n => rb s (0x3D01000 + 4 * n) 30) || (rb s 0x181000 27 && rb s 0x188000 16)

end Sys2Proof.Machine
end

