-- ==== Sys2Proof/Machine/Image.lean ====
section
/-! DEFINITION. Looking up the structure in force: records of the image (02_structure_image.md), cores, clusters and
spares (01 R32, R33), the posy tree, its supervisors and capacities (02 R60 to R65, 06 R212). -/

namespace Sys2Proof.Machine

/-- The INST record of an instance (02 R66). -/
def instRec (s : State) (i : Nat) : Option InstRec := s.img.inst.find? (fun r => r.inst == i)

/-- A field of the INST record, 0 where there is none. -/
def instF (s : State) (i : Nat) (f : InstRec → Nat) : Nat :=
  match instRec s i with
  | some r => f r
  | none => 0

/-- The state of an instance (16 R431). -/
def insState (s : State) (i : Nat) : InsSt := mget s.insSt i .absent

/-- Set the state of an instance. -/
def setIns (i : Nat) (st : InsSt) (s : State) : State := { s with insSt := mput s.insSt i st .absent }

/-- An instance counts as in reset (16 R431). -/
def insInReset (s : State) (i : Nat) : Bool :=
  match insState s i with
  | .absent => true
  | .reset => true
  | _ => false

/-- The POSY record of a posy (02 R60). -/
def posyRec (s : State) (x : Nat) : Option PosyRec := s.img.posy.find? (fun r => r.id == x)

/-- A core's record. -/
def coreRec (s : State) (c : Nat) : CoreRec := mget s.cores.core c CoreRec.init

/-- Change a core's record. -/
def coreMod (c : Nat) (f : CoreRec → CoreRec) (s : State) : State :=
  { s with cores := { s.cores with core := mmod s.cores.core c CoreRec.init f } }

/-- The regular core whose place a physical core has: a spare that has joined stands for the core it replaced (01 R33). -/
def homeCore (s : State) (c : Nat) : Nat :=
  if c < 128 then c
  else match (coreRec s c).other with
    | some h => h
    | none => c

/-- The physical core that stands for a regular core: its spare once it is retired and replaced (06 R212). -/
def physCore (s : State) (c : Nat) : Nat :=
  let r := coreRec s c
  if r.retired then match r.other with
    | some sp => sp
    | none => c
  else c

/-- A retired core that no spare replaced (06 R212). -/
def coreGone (s : State) (c : Nat) : Bool :=
  let r := coreRec s c
  r.retired && r.other.isNone

/-- The cluster of a physical core (01 R32, R33). -/
def clusterOf (s : State) (c : Nat) : Nat := homeCore s c / 4

/-- The core posy of a physical core, while the core is part of it (02 R60, 06 R212). -/
def corePosy (s : State) (c : Nat) : Option PosyRec :=
  if (coreRec s c).retired then none
  else s.img.posy.find? (fun r => !r.isSet && r.core == homeCore s c)

/-- The instance a core belongs to. -/
def coreInst (s : State) (c : Nat) : Option Nat :=
  match s.img.posy.find? (fun r => !r.isSet && r.core == homeCore s c) with
  | some r => some r.inst
  | none => none

/-- A posy and those that enclose it, innermost first (at most 8 deep, 02 R61). -/
def posyChain (s : State) (x : Nat) : Nat → List Nat
  | 0 => []
  | n + 1 => match posyRec s x with
    | none => []
    | some r => x :: (if r.parent = 255 then [] else posyChain s r.parent n)

/-- The posies that contain a core, innermost first. -/
def coreChain (s : State) (c : Nat) : List Nat :=
  match corePosy s c with
  | some r => posyChain s r.id 9
  | none => []

/-- The chain of posies a core's record names, also once the core is retired. -/
def recChain (s : State) (c : Nat) : List Nat :=
  match s.img.posy.find? (fun r => !r.isSet && r.core == homeCore s c) with
  | some r => posyChain s r.id 9
  | none => []

/-- The root of the posy tree that holds posy `x`. -/
def posyRoot (s : State) (x : Nat) : Nat := (posyChain s x 9).getLast?.getD x

/-- The MODE record that governs a posy (02 R64). -/
def modeOf (s : State) (x : Nat) : Option ModeRec := s.img.mode.find? (fun r => r.root == posyRoot s x)

/-- The MODE record that governs a core. -/
def coreMode (s : State) (c : Nat) : Option ModeRec :=
  match s.img.posy.find? (fun r => !r.isSet && r.core == homeCore s c) with
  | some r => modeOf s r.id
  | none => none

/-- A thread's number: 8 times its core plus its number in the core. -/
def tidOf (c t : Nat) : Nat := c * 8 + t

/-- The thread of a posy's record that supervises it, as a physical thread; none when its core is retired without a
spare (02 R62, 06 R212). -/
def ownSup (s : State) (x : Nat) : Option Nat :=
  match posyRec s x with
  | none => none
  | some r => if coreGone s r.supCore then none else some (tidOf (physCore s r.supCore) r.supThread)

/-- The supervisor of a posy: its own, or that of the nearest enclosing posy whose supervisor's core is present
(06 R212); none means the steward. -/
def supOf (s : State) (x : Nat) : Option Nat := (posyChain s x 9).findSome? (ownSup s)

/-- A thread is a supervisor thread (02 R62). -/
def isSup (s : State) (tid : Nat) : Bool :=
  s.img.posy.any (fun r => r.supCore == homeCore s (tid / 8) && r.supThread == tid % 8)

/-- The worker threads of a core (02 R62). -/
def workersOf (s : State) (c : Nat) : List Nat :=
  ((List.range 8).map (tidOf c)).filter (fun t => !isSup s t)

/-- The members of a set posy (02 R60), in ascending POSY_ID. -/
def members (s : State) (x : Nat) : List Nat :=
  sortAsc ((s.img.posy.filter (fun r => r.parent == x && r.parent != 255)).map (·.id))

/-- The physical cores present within a posy, at most `n` levels down: not a retired core, nor a spare that has yet to
join (06 R212), nor a core that waits for its reshape point (02 R87). -/
def posyCores (s : State) : Nat → Nat → List Nat
  | 0, _ => []
  | n + 1, x => match posyRec s x with
    | none => []
    | some r =>
      if r.isSet then ((members s x).map (posyCores s n)).flatten
      else
        let c := physCore s r.core
        if (coreRec s c).retired || (decide (128 ≤ c) && !(coreRec s c).spareActive) || s.ctl.moves.any (fun m => m.1 == r.core) then []
        else [c]

/-- The capacity of a posy: the worker threads of its cores that are present (02 R62, 01 R35). -/
def capOf (s : State) (x : Nat) : Nat := ((posyCores s 9 x).map (fun c => (workersOf s c).length)).sum

/-- The cores of an instance's posy tree. -/
def instCores (s : State) (i : Nat) : List Nat :=
  match instRec s i with
  | some r => posyCores s 9 r.root
  | none => []

/-- Whether thread `sup` supervises a posy that contains core `c` (06 R197). -/
def supervises (s : State) (sup c : Nat) : Bool := (coreChain s c).any (fun x => supOf s x == some sup)

/-- The units attached to a cluster (02 R69). -/
def unitsOf (s : State) (k : Nat) : Nat :=
  match s.img.copa.find? (fun r => r.1 == k) with
  | some r => r.2
  | none => 0

/-- The instance of a cluster (02 R63). -/
def clusterInst (s : State) (k : Nat) : Option Nat :=
  match s.img.posy.find? (fun r => !r.isSet && r.core / 4 == k) with
  | some r => some r.inst
  | none => none

/-- A flow lies in an instance's ranges (02 R70). -/
def flowOf (s : State) (i f : Nat) : Bool :=
  s.img.oflw.any (fun r => r.inst == i && decide (r.base ≤ f) && decide (f < r.base + r.count))

/-- The TGEO record of a table (02 R73). -/
def tgeoRec (s : State) (t : Nat) : Option TgeoRec := s.img.tgeo.find? (fun r => r.table == t)

/-- The PORT record of a MAC (02 R68). -/
def macPort (s : State) (m : Nat) : Option PortRec := s.img.port.find? (fun r => r.mac == m)

/-- The PORT record that carries a logical port. -/
def lportRec (s : State) (n : Nat) : Option PortRec := s.img.port.find? (fun r => r.lport == n)

/-- The instance that owns a logical port: network ports by the PORT record, host ports by the VF of the INST record
(01 R30, 02 R68). -/
def portInst (s : State) (n : Nat) : Option Nat :=
  if n < 64 then match lportRec s n with
    | some r => some r.inst
    | none => none
  else if n = 64 then some 0
  else if n ≤ 96 then match s.img.inst.find? (fun r => r.vf == n - 64) with
    | some r => some r.inst
    | none => none
  else none

/-- The host port of an instance (02 R72): port 64 for instance 0, port 64 + v for the instance whose VF is v. -/
def hostPort (s : State) (i : Nat) : Option Nat :=
  if i = 0 then some 64
  else match instRec s i with
    | some r => if r.vf = 0 then none else some (64 + r.vf)
    | none => none

/-- A reserved logical port (01 R30, R31). -/
def portReserved (n : Nat) : Bool := decide (97 ≤ n ∧ n ≤ 119) || decide (123 ≤ n ∧ n ≤ 126) || decide (127 < n)

/-- The instance a requester stands for: a virtual function's own (16 R443, 20 R522). -/
def reqInst (s : State) : Req → Option Nat
  | .vf v => match s.img.inst.find? (fun r => r.vf == v.val + 1) with
    | some r => some r.inst
    | none => none
  | _ => some 0

/-- The requester is the physical function or the steward. -/
def reqPriv : Req → Bool
  | .pf => true
  | .steward => true
  | _ => false

end Sys2Proof.Machine
end

