-- ==== Sys2Proof/Machine/PktOps.lean ====
section
/-! DEFINITION. Packets in the buffer: admission accounting (03 R114 to R116), drop counting (04 R155, 05 R188,
14 R396), the in-flight count of the stamped epoch (04 R139), and freeing a packet's cells. -/

namespace Sys2Proof.Machine

/-- ING_PQA[n][c] (03 R124). -/
def ingPqa (n c : Nat) : Nat := 0x1008100 + 0x40 * n + 8 * c

/-- ING_PQB[n][c] (03 R124). -/
def ingPqb (n c : Nat) : Nat := 0x1008104 + 0x40 * n + 8 * c

/-- GUAR[n][c]. -/
def guarOf (s : State) (n c : Nat) : Nat := rf s (ingPqa n c) 15 0

/-- HEADROOM[n][c]. -/
def headroomOf (s : State) (n c : Nat) : Nat := rf s (ingPqa n c) 31 16

/-- SHARED_LIMIT[n][c]. -/
def sharedLimit (s : State) (n c : Nat) : Nat := rf s (ingPqb n c) 17 0

/-- The charged cells of a port and priority (03 R115). -/
def occOf (s : State) (n c : Nat) : Occ := mget s.port.occ (n * 8 + c) ⟨0, 0, 0⟩

/-- occ[n][c], the sum of the three (03 R115). -/
def occSum (s : State) (n c : Nat) : Nat :=
  let o := occOf s n c
  o.g + o.s + o.h

/-- The sum of GUAR and HEADROOM over the network ports and priorities (03 R114). -/
def reservedSum (s : State) : Nat :=
  ((List.range 512).map (fun k => guarOf s (k / 8) (k % 8) + headroomOf s (k / 8) (k % 8))).sum

/-- SHARED_POOL (03 R114). -/
def sharedPool (s : State) : Int := 196608 - (rf s 0x1009100 17 0 : Int) - (reservedSum s : Int)

/-- shared_free (03 R115). -/
def sharedFree (s : State) : Int := sharedPool s - (s.port.sharedUsed : Int)

/-- Priority `c` of port `n` is lossless (03 R114). -/
def lossless (s : State) (n c : Nat) : Bool := rb s (0x1008000 + 4 * n) (16 + c)

/-- Contexts an instance holds (05 R168). -/
def ctxHeld (s : State) (i : Nat) : Nat := (s.dsp.ctxs.filter (fun p => p.2.inst == i)).length

/-- Reserved contexts of an instance, of an instance with a record (05 R168). -/
def ctxReserved (s : State) (i : Nat) : Nat := instF s i (·.contexts)

/-- Free contexts of the unreserved pool (05 R168). -/
def ctxPoolFree (s : State) : Nat :=
  let res := (s.img.inst.map (·.contexts)).sum
  let used := (s.img.inst.map (fun r => ctxHeld s r.inst - r.contexts)).sum
  8192 - res - used

/-- The free contexts an instance can still take (05 R168). -/
def ctxFree (s : State) (i : Nat) : Nat :=
  let held := ctxHeld s i
  let r := ctxReserved s i
  let cap := rf s (0x2008000 + 4 * i) 29 16
  (r - held) + min ((max r cap) - (max held r)) (ctxPoolFree s)

/-- A flow-control frame of a port is queued (03 R117). -/
def fcQueue (n : Nat) (s : State) : State := { s with port := { s.port with fcq := mput s.port.fcq n true false } }

/-- Raise XOFF of a port and priority, once (03 R116, R117). -/
def xoffRaise (n c : Nat) (s : State) : State :=
  if lossless s n c && !mget s.port.xoff (n * 8 + c) false then
    fcQueue n { s with port := { s.port with xoff := mput s.port.xoff (n * 8 + c) true false,
                                             cleared := mput s.port.cleared (n * 8 + c) false false } }
  else s

/-- Clear XOFF of a port and priority: a PFC frame carries its 0 time (03 R116, R117). -/
def xoffClear (n c : Nat) (s : State) : State :=
  if mget s.port.xoff (n * 8 + c) false then
    fcQueue n { s with port := { s.port with xoff := mput s.port.xoff (n * 8 + c) false false,
                                             cleared := mput s.port.cleared (n * 8 + c) true false } }
  else s

/-- All three conditions that clear an XOFF hold (03 R116). -/
def xoffCanClear (s : State) (n c : Nat) : Bool :=
  decide ((occSum s n c : Int) ≤ (guarOf s n c + sharedLimit s n c : Int) - 8 * ((rf s (ingPqb n c) 31 24 : Int) + 1)) &&
  decide (4608 ≤ sharedFree s) &&
  (match portInst s n with
    | some i => decide (64 ≤ ctxFree s i)
    | none => true)

/-- Clear every XOFF whose conditions have ended, and the instance's bit of ING_WINSTS with them (03 R116). -/
def xoffSweep (s : State) : State :=
  let s := (mkeys s.port.xoff).foldl (fun s k => if xoffCanClear s (k / 8) (k % 8) then xoffClear (k / 8) (k % 8) s else s) s
  rset s 0x1001000 (w32 (((List.range 32).map (fun i =>
    if rb s 0x1001000 i && decide (ctxFree s i < 64) then 2 ^ i else 0)).sum))

/-- Return a packet's cells to where they were charged, and the cells that held saved originals (03 R115, 18 R476). -/
def uncharge (p : Pkt) (s : State) : State :=
  let k := p.from_ * 8 + p.prio
  let s := { s with port := { s.port with sharedUsed := s.port.sharedUsed - (p.shared + p.saved.length) } }
  if p.from_ < 64 && !p.copy then
    let o := mget s.port.occ k ⟨0, 0, 0⟩
    { s with port := { s.port with occ := mput s.port.occ k ⟨o.g - p.guar, o.s - p.shared, o.h - p.head⟩ ⟨0, 0, 0⟩ } }
  else if p.copy then s
  else { s with port := { s.port with hostUsed := s.port.hostUsed - p.cells } }

/-- PRS_EPOCHSTS[i][slot] (04 R156). -/
def epochSts (i slot : Nat) : Nat := 0x1401400 + 0x10 * i + 4 * slot

/-- The in-flight count of a packet's stamped epoch rises by 1 (04 R139). -/
def epochInc (i slot : Nat) (s : State) : State :=
  let w := rv s (epochSts i slot)
  if slot < 4 then rset s (epochSts i slot) (setBits w 29 16 (bits w 29 16 + 1)) else s

/-- A graph that no slot other than a FREE one names is discarded (04 R138); the graph of the image in force, which the
next epoch binds, is kept (DEDUCED). -/
def graphSweep (s : State) : State :=
  { s with rules := { s.rules with
      graphs := s.rules.graphs.filter (fun g => g.1 == s.rules.graphNow || s.rules.epochs.any (fun e => e.2.graph == g.1)) } }

/-- The fragment-follow entries of an epoch are invalidated with it (04 R136). -/
def fragForget (i slot : Nat) (s : State) : State :=
  { s with rules := { s.rules with frags := s.rules.frags.map (fun t =>
      (t.1, t.2.filter (fun (f : FragRec) => !(f.key.head? == some i && f.slot == slot)))) } }

/-- A slot becomes FREE (04 R139, R141). -/
def epochFree (i slot : Nat) (s : State) : State :=
  let s := fragForget i slot s
  let s := rset s (epochSts i slot) (setBits (rv s (epochSts i slot)) 31 30 0)
  graphSweep { s with rules := { s.rules with epochs := mdel s.rules.epochs (i * 4 + slot) } }

/-- The count falls by 1; a DRAINING or RETIRED slot whose count reaches 0 becomes FREE (04 R139, R141). -/
def epochDec (i slot : Nat) (s0 : State) : State :=
  let w := rv s0 (epochSts i slot)
  let n := bits w 29 16 - 1
  let s := rset s0 (epochSts i slot) (setBits w 29 16 n)
  if 4 ≤ slot then s0 else if n = 0 && decide (2 ≤ bits w 31 30) then epochFree i slot s else s

/-- The packet whose first cell is `c`. -/
def pktOf (s : State) (c : Nat) : Option Pkt := mfind s.dsp.pkts c

/-- Put or replace a packet. -/
def setPkt (c : Nat) (p : Pkt) (s : State) : State := { s with dsp := { s.dsp with pkts := mins s.dsp.pkts c p } }

/-- A thread in STALL for a free cell executes its BST again (18 R476). -/
def cellWake (s : State) : State :=
  { s with cores := { s.cores with thr := s.cores.thr.map (fun (p : Nat × Thread) =>
      if p.2.wait = .cell then
        (p.1, if p.2.st = .stall then { p.2 with st := .ready, wait := .none }
          else if p.2.st = .stopped then { p.2 with back := .ready, wait := .none } else p.2)
      else p) } }

/-- Free a packet's last cell: its charges return and its epoch's count falls (03 R115, 04 R139). -/
def pktFree (c : Nat) (s : State) : State :=
  match pktOf s c with
  | none => s
  | some p =>
    let s := uncharge p s
    let s := epochDec p.inst p.slot s
    let s := { s with hif := { s.hif with patQ := s.hif.patQ.map (fun (t : Nat × List (Nat × Nat × Nat)) =>
      (t.1, t.2.filter (fun x => x.1 != c))) } }
    cellWake (xoffSweep { s with dsp := { s.dsp with pkts := mdel s.dsp.pkts c } })

/-- Count a drop with reason `r` of an instance (04 R155, 05 R188, 14 R396). -/
def countDrop (r i : Nat) (s : State) : State :=
  if r < 0x40 then cnt (0x1801000 + 0x80 * i + 4 * (r - 0x20)) s
  else if r < 0x50 then cnt (0x2001400 + 0x40 * i + 4 * (r - 0x40)) s
  else cnt (0x3A01400 + 0x40 * i + 4 * (r - 0x50)) s

/-- Drop a packet: its reason is counted for its instance and its cells are freed (05 R177). -/
def pktDrop (r c : Nat) (s : State) : State :=
  match pktOf s c with
  | none => s
  | some p => pktFree c (countDrop r p.inst s)

/-- The handle of a packet (12 R337). -/
def pktHandle (i c : Nat) : Word := w32 (3 * 2 ^ 30 + i % 32 * 2 ^ 25 + c % 2 ^ 18)

/-- A free cell, at or after a free choice of the device. -/
def freeCell (s : State) : Option Nat × State :=
  let (k, s) := drawPick 196608 s
  match findFrom (fun c => !mhas s.dsp.pkts (c % 196608)) k 196608 with
  | some c => (some (c % 196608), s)
  | none => (none, s)

end Sys2Proof.Machine
end

