-- ==== Sys2Proof/Machine/ThreadOps.lean ====
section
/-! DEFINITION. Threads: their registers and tags (07 R214 to R223), the fall-through rule of hardware loops (07 R238),
core-local memory words, and who a thread is. -/

namespace Sys2Proof.Machine

/-- The tag codes of 07 R217. -/
def tINT : Nat := 0
def tBOOL : Nat := 1
def tBUF : Nat := 2
def tHOFS : Nat := 3
def tTBL : Nat := 4
def tTIME : Nat := 5
def tCODE : Nat := 6
def tKEY : Nat := 7
def tPOISON : Nat := 8
def tVOID : Nat := 15

/-- A thread by its number. -/
def thr (s : State) (tid : Nat) : Thread := mget s.cores.thr tid Thread.init

/-- Replace a thread. -/
def setThr (tid : Nat) (t : Thread) (s : State) : State :=
  { s with cores := { s.cores with thr := mput s.cores.thr tid t Thread.init } }

/-- Change a thread. -/
def thrMod (tid : Nat) (f : Thread → Thread) (s : State) : State := setThr tid (f (thr s tid)) s

/-- The core of a thread. -/
def tcore (tid : Nat) : Nat := tid / 8

/-- The thread runs in a plain32 posy (02 R64). -/
def plainOf (s : State) (tid : Nat) : Bool :=
  match coreMode s (tcore tid) with
  | some m => m.plain
  | none => false

/-- The instance of a thread. -/
def tinst (s : State) (tid : Nat) : Nat := (coreInst s (tcore tid)).getD 0

/-- A g-register with its tag; in a plain32 posy every register reads as INT (07 R223). -/
def getG (plain : Bool) (t : Thread) (r : Nat) : TV :=
  let x := mget t.g r TV.void
  if plain then { v := x.v, tag := tINT } else x

/-- Write a g-register. -/
def setG (t : Thread) (r : Nat) (x : TV) : Thread := { t with g := mput t.g r x TV.void }

/-- An INT value. -/
def tvInt (w : Word) : TV := { v := w, tag := tINT }

/-- Set Z and N from a result (08 R246). -/
def setZN (w : Word) (t : Thread) : Thread := { t with z := decide (w = 0), n := bit w 31 }

/-- FL as a word (07 R215). -/
def flWord (plain : Bool) (t : Thread) : Word :=
  w32 (b2n t.z + 2 * b2n t.n + 4 * b2n t.c + 8 * b2n t.v + 16 * b2n (!plain))

/-- A loop level's registers. -/
def lvOf (t : Thread) (k : Nat) : Lvl := mget t.lv k ⟨0, 0, 0⟩

/-- Set a loop level's registers. -/
def setLv (t : Thread) (k : Nat) (l : Lvl) : Thread := { t with lv := mput t.lv k l ⟨0, 0, 0⟩ }

/-- Fall through to `next`: the end-of-body rule of the innermost active level, applied again to the next level while
its LE is the same (07 R238). -/
def fallTo (n : Nat) (next : Nat) (t : Thread) : Thread :=
  match n with
  | 0 => { t with pc := next }
  | n + 1 =>
    if t.depth = 0 then { t with pc := next }
    else
      let k := t.depth - 1
      let l := lvOf t k
      if l.le = next then
        if 1 < l.lc.toNat then { setLv t k { l with lc := l.lc - 1 } with pc := l.ls }
        else fallTo n next { t with depth := k }
      else { t with pc := next }

/-- Commit an instruction without a taken branch: continue at the next address (07 R238). -/
def advance (next : Nat) (t : Thread) : Thread := fallTo 4 next t

/-- Count an instruction committed by a core (06 R213). -/
def commitCnt (c : Nat) (s : State) : State :=
  { s with cores := { s.cores with commits := mmod s.cores.commits c 0 (· + 1) } }

/-- Core-local memory's key of an address of a core. -/
def cmKey (c a : Nat) : Nat := c * 131072 + a

/-- The tag of the word that holds an address. -/
def cmTag (s : State) (c a : Nat) : Nat := mget s.cores.tags (c * 32768 + a / 4) tVOID

/-- Set the tag of a word. -/
def cmSetTag (c a tag : Nat) (s : State) : State :=
  { s with cores := { s.cores with tags := mput s.cores.tags (c * 32768 + a / 4) tag tVOID } }

/-- The poison mark of a word (06 R195). -/
def cmPoison (s : State) (c a : Nat) : Bool := mget s.cores.poison (c * 32768 + a / 4) false

/-- Set or clear the poison mark of a word. -/
def cmSetPoison (c a : Nat) (b : Bool) (s : State) : State :=
  { s with cores := { s.cores with poison := mput s.cores.poison (c * 32768 + a / 4) b false } }

/-- `n` bytes of core-local memory, little-endian (07 R222). -/
def cmRead (s : State) (c a n : Nat) : Nat := leVal (memRdN s.cores.mem 0 (cmKey c a) n)

/-- Write the `n` low bytes of a value to core-local memory, little-endian. -/
def cmWrite (c a n v : Nat) (s : State) : State :=
  { s with cores := { s.cores with mem := memWrN s.cores.mem 0 (cmKey c a) (leBytes n v) } }

/-- Write a whole word with its tag: the mark clears (07 R222). -/
def cmWordTag (c a : Nat) (x : TV) (s : State) : State :=
  cmSetPoison c a false (cmSetTag c a x.tag (cmWrite c a 4 x.v.toNat s))

/-- Write consecutive words with tag INT. -/
def cmWords (c a : Nat) (ws : List Word) (s : State) : State :=
  (ws.foldl (fun (p : State × Nat) w => (cmWordTag c p.2 (tvInt w) p.1, p.2 + 4)) (s, a)).1

/-- The address of a thread's context block (09 R265). -/
def cblk (tid : Nat) : Nat := 0x1F800 + 0x100 * (tid % 8)

/-- The next request number. -/
def nextSeq (s : State) : Nat × State := (s.cores.seq, { s with cores := { s.cores with seq := s.cores.seq + 1 } })

/-- The item a thread holds. -/
def thrItem (s : State) (tid : Nat) : Option Item :=
  match (thr s tid).entry with
  | some e => mfind s.dsp.items e
  | none => none

/-- Who an INPUT record of a thread names (18 R494). -/
def jwho (s : State) (tid : Nat) : JWho :=
  let base : JWho := { core := tcore tid, thread := tid % 8, pass := 0, exec := 0, inst := tinst s tid, nonpkt := true, seq := 0 }
  match thrItem s tid with
  | none => base
  | some it =>
    match it.cell with
    | some c =>
      let p := (pktOf s c).getD Pkt.init
      { base with pass := p.pass, exec := it.exec, nonpkt := false, seq := p.jseq.getD 0 }
    | none => { base with exec := it.exec, seq := it.seq.getD 0 }

/-- The state of a thread for a wait: the one it returns to while it is stopped (06 R209). -/
def liveSt (t : Thread) : TSt := if t.st = .stopped then t.back else t.st

/-- Put a thread that waits back to READY; a stopped thread keeps that for its RESUME (06 R209), and an instruction that
STEP executed has committed (06 R213). -/
def wake (t : Thread) : Thread :=
  let t := { t with wait := .none, bkSkip := false, step := if t.step = 1 then 2 else t.step }
  if t.st = .stopped then { t with back := .ready } else { t with st := .ready }

end Sys2Proof.Machine
end

