-- ==== Sys2Proof/Machine/LockOps.lean ====
section
/-! DEFINITION. The lock unit (11_locks.md): ownership, waiters, inherited priority, grants and releases. -/

namespace Sys2Proof.Machine

/-- The number under which the steward holds a lock. -/
def stwId : Nat := 2000

/-- The state of a lock (11 R319, R327). -/
def lockOf (s : State) (n : Nat) : Lock := mget s.lck.lk n ⟨none, 0⟩

/-- Set the state of a lock. -/
def setLock (n : Nat) (l : Lock) (s : State) : State := { s with lck := { s.lck with lk := mput s.lck.lk n l ⟨none, 0⟩ } }

/-- A value is a lock number in the global form (11 R319). -/
def isGlobal (n : Nat) : Bool := decide (n < 65536)

/-- A value is a lock number in the fast form (11 R319). -/
def isFast (n : Nat) : Bool :=
  nbits n 31 31 == 1 && nbits n 30 13 == 0 && nbits n 7 6 == 0 && decide (n < 2 ^ 32)

/-- The lock number of a fast lock. -/
def fastLock (k f : Nat) : Nat := 2 ^ 31 + k * 256 + f

/-- The instance a lock belongs to (11 R320). -/
def lockInst (s : State) (n : Nat) : Option Nat :=
  if n < 65536 then
    (List.range 32).find? (fun i =>
      let w := rv s (0x3008000 + 4 * i)
      decide (64 * bits w 9 0 ≤ n) && decide (n < 64 * (bits w 9 0 + bits w 26 16)))
  else clusterInst s (nbits n 12 8)

/-- The threads that wait for a lock, stopped ones that still wait included (11 R321, 06 R209). -/
def lockWaiters (s : State) (n : Nat) : List Nat :=
  (s.cores.thr.filter (fun p => decide (liveSt p.2 = .blocked) && decide (p.2.wait = .lock n))).map (·.1)

/-- The locks a thread holds. -/
def locksHeld (s : State) (tid : Nat) : List Nat :=
  (s.lck.lk.filter (fun p => p.2.holder == some tid)).map (·.1)

/-- EFF_PRIO: the larger of BASE_PRIO and the priority inherited along chains of locks of at most `n` links; a steward
request gives priority 3 (06 R192, 11 R323). -/
def effPrioN (s : State) : Nat → Nat → Nat
  | 0, tid => (thr s tid).base
  | n + 1, tid =>
    (locksHeld s tid).foldl (fun m l =>
      let m := if (match s.lck.stwWait with | some w => w.1 == l | none => false) then max m 3 else m
      (lockWaiters s l).foldl (fun m w => max m (effPrioN s n w)) m) (thr s tid).base

/-- EFF_PRIO (06 R192). A chain that returns to itself stops by the bound on its length. -/
def effPrio (s : State) (tid : Nat) : Nat := effPrioN s 8 tid

/-- Thread `a` ranks ahead of thread `b` for a grant (11 R321, 10 R294). -/
def ranksAhead (s : State) (a b : Nat) : Bool :=
  let pa := effPrio s a
  let pb := effPrio s b
  decide (pb < pa) || (decide (pa = pb) && (decide ((thr s a).wseq < (thr s b).wseq) ||
    (decide ((thr s a).wseq = (thr s b).wseq) && decide (a < b))))

/-- The waiter that ranks first. -/
def bestWaiter (s : State) (l : List Nat) : Option Nat :=
  l.foldl (fun o w => match o with
    | none => some w
    | some b => if ranksAhead s w b then some w else some b) none

/-- LCK_CNT[i][k] (11 R332). -/
def lckCnt (i k : Nat) : Nat := 0x3001100 + 0x20 * i + 4 * k

/-- Count a grant and its status for the lock's instance; an abnormal status is a journal input (11 R326, R332). -/
def countGrant (n status : Nat) (who : Option JWho) (s : State) : State :=
  let i := (lockInst s n).getD 0
  let s := cnt (lckCnt i 0) s
  let s := if status = 1 then cnt (lckCnt i 2) s else if status = 2 then cnt (lckCnt i 3) s else s
  match who with
  | some w => if status = 0 then s else jnlInput 3 w [status * 2 ^ 32 + n] s
  | none => s

/-- A thread belongs to the instance of a running replay (18 R500). -/
def inReplay (s : State) (tid : Nat) : Bool := decide (s.jnl.rp = .run) && tinst s tid == rf s 0x408100 28 24

/-- The KIND of a recorded input. -/
def rpKind (r : List Nat) : Nat := nbits ((r[0]?).getD 0) 61 56

/-- The next recorded input of the item being replayed. -/
def rpNext (s : State) : Option (List Nat) := s.jnl.rpInputs.head?

/-- The next recorded input is taken. -/
def rpTake (s : State) : State := { s with jnl := { s.jnl with rpInputs := s.jnl.rpInputs.tail } }

/-- The status a grant to a thread carries: in a replay the recorded one, and no other (18 R500). -/
def grantStatus (tid live : Nat) (s : State) : Nat × State :=
  if inReplay s tid then
    match rpNext s with
    | some r => if rpKind r = 3 then (nbits ((r[1]?).getD 0) 33 32, rpTake s) else (0, s)
    | none => (0, s)
  else (live, s)

/-- Grant a free lock to its highest-ranked waiter; the steward ranks at priority 3 and before a thread of the same
cycle (11 R321). The waiter's LOCK commits with the grant's status in V (09 R280). -/
def lockGrant (n : Nat) (s : State) : State :=
  let l := lockOf s n
  if l.holder.isSome then s
  else
    let best := bestWaiter s (lockWaiters s n)
    let stw := match s.lck.stwWait with
      | some w => if w.1 = n then some w.2 else none
      | none => none
    let toStw := match stw, best with
      | none, _ => false
      | some _, none => true
      | some q, some b => decide (effPrio s b < 3) || (decide (effPrio s b = 3) && decide (q ≤ (thr s b).wseq))
    if toStw then
      let s := countGrant n l.status none s
      let s := setLock n { holder := some stwId, status := l.status } s
      let s := { s with lck := { s.lck with stwWait := none } }
      rset s (reqKey .steward 0x3001808) (w32 (l.status * 16))
    else match best with
      | none => s
      | some b =>
        let (st, s) := grantStatus b l.status s
        let s := countGrant n st (some (jwho s b)) s
        let s := setLock n { holder := some b, status := st } s
        commitCnt (b / 8) (thrMod b (fun t => wake (advance t.wnext { t with z := true, v := decide (st ≠ 0) })) s)

/-- Release a lock: STATUS as given, the next waiter not yet granted. -/
def lockRelease (n status : Nat) (s : State) : State := setLock n { holder := none, status := status } s

/-- Free every lock of a list ABANDONED, each granted in the same step (11 R324). -/
def lockAbandon (l : List Nat) (s : State) : State := l.foldl (fun s n => lockGrant n (lockRelease n 1 s)) s

/-- The lock status word (11 R327). -/
def lockWord (s : State) (n : Nat) : Word :=
  let l := lockOf s n
  let ws := lockWaiters s n
  let stw := match s.lck.stwWait with
    | some w => w.1 == n
    | none => false
  let top := ws.foldl (fun m w => max m (effPrio s w)) (if stw then 3 else 0)
  match l.holder with
  | none => w32 (l.status * 2 ^ 29 + top * 2 ^ 26 + (ws.length + b2n stw) * 2 ^ 15)
  | some h =>
    let inh := decide (h ≠ stwId) && decide ((thr s h).base < top)
    w32 (2 ^ 31 + l.status * 2 ^ 29 + b2n inh * 2 ^ 28 + top * 2 ^ 26 + (ws.length + b2n stw) * 2 ^ 15 +
      (if h = stwId then 2 ^ 6 else h / 8 * 2 ^ 7 + h % 8))

end Sys2Proof.Machine
end

