-- ==== Sys2Proof/Machine/CpxOps.lean ====
section
/-! DEFINITION. Contexts of the shared units: grant, release, clearing (10_coprocessors.md R292 to R304). -/

namespace Sys2Proof.Machine

/-- The key of context `x` of unit `u` in cluster `k`. -/
def cpxKey (k u x : Nat) : Nat := k * 64 + u * 8 + x

/-- A context (10 R293). -/
def cpxOf (s : State) (k u x : Nat) : CpxCtx := mget s.cpx.ctx (cpxKey k u x) CpxCtx.init

/-- Replace a context. -/
def setCpx (k u x : Nat) (c : CpxCtx) (s : State) : State :=
  { s with cpx := { s.cpx with ctx := mput s.cpx.ctx (cpxKey k u x) c CpxCtx.init } }

/-- CPX_CNT[k][u][j] (10 R317). -/
def cpxCnt (k u j : Nat) : Nat := 0x2C03000 + 0x80 * k + 0x10 * u + 4 * j

/-- A c-register (10 R293). -/
def creg (c : List (Nat × TV)) (n : Nat) : TV := mget c n TV.void

/-- The context of unit `u` a thread holds (10 R285). -/
def heldCpx (t : Thread) (u : Nat) : Option Nat :=
  match t.cps.find? (fun p => p.1 == u) with
  | some p => some p.2
  | none => none

/-- A context that can be granted. -/
def cpxFree (s : State) (k u x : Nat) : Bool :=
  let c := cpxOf s k u x
  c.holder.isNone && !c.releasing && c.cmd.isNone

/-- The threads of a cluster that wait in CLK for a unit. -/
def clkWaiters (s : State) (k u : Nat) : List Nat :=
  (s.cores.thr.filter (fun p => decide (liveSt p.2 = .blocked) && decide (p.2.wait = .clk u) &&
    decide (clusterOf s (p.1 / 8) = k))).map (·.1)

/-- Give context `x` to a thread, cleared, with the address after its CLK recorded (10 R294, 06 R210). -/
def cpxTake (k u x tid clkPc : Nat) (s : State) : State :=
  let s := setCpx k u x { CpxCtx.init with holder := some tid, clkPc := clkPc } s
  thrMod tid (fun t => { t with cps := (u, x) :: t.cps }) s

/-- The waiter's CLK commits with the granted context; a thread that acquires again after a debugger stop continues once
it has them all (10 R294, 09 R285, 06 R210). -/
def cpxGrantTo (k u x tid : Nat) (s : State) : State :=
  let dbg := (cpxOf s k u x).dbg
  let t := thr s tid
  match t.reacq with
  | [] =>
    let s := cpxTake k u x tid t.wnext s
    commitCnt (tid / 8) (thrMod tid (fun t => wake (advance t.wnext (setG { t with z := true, v := dbg } t.wrd (tvInt (w32 x))))) s)
  | (_, a) :: rest =>
    let s := cpxTake k u x tid a s
    match rest with
    | [] => thrMod tid (fun t => wake { t with reacq := [] }) s
    | (u2, _) :: _ => thrMod tid (fun t => { t with reacq := rest, wait := .clk u2 }) s

/-- The lowest-numbered context of a unit that is free goes to the first waiter (10 R294). -/
def cpxGrant (k u : Nat) (s : State) : State :=
  match (List.range 8).find? (cpxFree s k u), bestWaiter s (clkWaiters s k u) with
  | some x, some tid => cpxGrantTo k u x tid s
  | _, _ => s

/-- Release a context: at once where no command is outstanding, else when it completes (10 R301). `dbg`: it carries
DEBUG_RELEASED. -/
def cpxRelease (k u x : Nat) (dbg : Bool) (s : State) : State :=
  let c := cpxOf s k u x
  let s := match c.holder with
    | some tid => thrMod tid (fun t => { t with cps := t.cps.filter (fun p => !(p.1 == u && p.2 == x)) }) s
    | none => s
  if c.cmd.isSome then setCpx k u x { c with releasing := true, dbg := dbg } s
  else setCpx k u x { CpxCtx.init with dbg := dbg } s

/-- The BUF handles in a context's c-registers (10 R303). -/
def cpxBufs (c : CpxCtx) : List Word := (c.c.filter (fun p => p.2.tag == tBUF)).map (fun p => p.2.v)

/-- Discard a context's commands, clear and free it; its holder no longer holds it (10 R304). -/
def cpxDiscard (k u x : Nat) (s : State) : State :=
  let c := cpxOf s k u x
  let s := match c.holder with
    | some tid => thrMod tid (fun t => { t with cps := t.cps.filter (fun p => !(p.1 == u && p.2 == x)) }) s
    | none => s
  setCpx k u x CpxCtx.init s

end Sys2Proof.Machine
end

