-- ==== Sys2Proof/Machine/ItemOps.lean ====
section
/-! DEFINITION. Packet contexts and their flows, ordered release, ready lists, spreading, and the creation of work items
and messages (05_dispatch_order.md R160 to R180). -/

namespace Sys2Proof.Machine

/-- The parse graph a packet's epoch binds (04 R138). -/
def graphOf (s : State) (i slot : Nat) : Graph :=
  match mfind s.rules.epochs (i * 4 + slot) with
  | some e => mget s.rules.graphs e.graph ⟨[], []⟩
  | none => ⟨[], []⟩

/-- The KIND of a header type in a graph; 0 GENERIC for a type it does not define. -/
def kindOf (g : Graph) (ty : Nat) : Nat :=
  match g.types.find? (fun t => t.id == ty) with
  | some t => t.kind
  | none => 0

/-- A 16-bit big-endian value of a frame. -/
def be16 (l : List Byte) (o : Nat) : Nat := beVal (sliceB l o 2)

/-- A 32-bit big-endian value of a frame. -/
def be32 (l : List Byte) (o : Nat) : Nat := beVal (sliceB l o 4)

/-- The Toeplitz hash of bytes under a 320-bit key, from bit position `pos` of the key (05 R174, 10 R290). -/
def toepBits (key pos : Nat) (bs : List Bool) : Nat :=
  (bs.foldl (fun (p : Nat × Nat) b => (if b then p.1 ^^^ (key * 2 ^ p.2 / 2 ^ 288 % 2 ^ 32) else p.1, p.2 + 1)) (0, pos)).1

/-- The bits of a byte, most significant first. -/
def byteBits (b : Byte) : List Bool := (List.range 8).map (fun k => b.getLsbD (7 - k))

/-- The fixed symmetric key: bytes 0x6D, 0x5A repeated, 40 bytes (05 R174). -/
def symKey : Nat := beVal ((List.replicate 20 [(0x6D : Byte), 0x5A]).flatten)

/-- The parse-result indices of a packet's IP headers. -/
def ipHeaders (g : Graph) (r : ParseRes) : List Nat :=
  (List.range r.hdrs.length).filter (fun h =>
    let k := kindOf g ((r.hdrs[h]?).getD ⟨0, 0, 0⟩).ty
    k == 4 || k == 5)

/-- Header `h` of a parse result. -/
def hdrAt (r : ParseRes) (h : Nat) : Hdr := (r.hdrs[h]?).getD ⟨0, 0, 0⟩

/-- The headers that follow header `h` up to the next IP header. -/
def innerOf (g : Graph) (r : ParseRes) (h : Nat) : List Hdr :=
  (r.hdrs.drop (h + 1)).takeWhile (fun x => kindOf g x.ty != 4 && kindOf g x.ty != 5)

/-- IP header `h` belongs to a fragment (04 R134). -/
def ipIsFrag (g : Graph) (r : ParseRes) (win : List Byte) (h : Nat) : Bool :=
  let x := hdrAt r h
  if kindOf g x.ty = 4 then
    let f := be16 win (x.off + 6)
    nbits f 13 13 == 1 || nbits f 12 0 != 0
  else (innerOf g r h).any (fun y => kindOf g y.ty == 7)

/-- The bytes a packet is hashed over (05 R174). A UDP or TCP header counts as following the IP header when it comes
before the next IP header (DEDUCED). -/
def hashInput (g : Graph) (p : Pkt) (depth : Nat) : List Byte :=
  let ips := ipHeaders g p.parse
  match (if depth = 0 then ips.head? else ips.getLast?) with
  | none => sliceB p.win 0 12
  | some h =>
    let x := hdrAt p.parse h
    let addrs := if kindOf g x.ty = 4 then sliceB p.win (x.off + 12) 8 else sliceB p.win (x.off + 8) 32
    match (innerOf g p.parse h).find? (fun y => kindOf g y.ty == 8 || kindOf g y.ty == 9) with
    | some y => if ipIsFrag g p.parse p.win h then addrs else addrs ++ sliceB p.win y.off 4
    | none => addrs

/-- The 32-bit hash of a packet (05 R174). -/
def pktHash (s : State) (p : Pkt) : Nat :=
  let depth := rf s (0x2008000 + 4 * p.inst) 30 30
  toepBits symKey 0 ((hashInput (graphOf s p.inst p.slot) p depth).map byteBits).flatten

/-- Rotate a 32-bit number left. -/
def rol32 (v n : Nat) : Nat :=
  let k := n % 32
  (v * 2 ^ k % 2 ^ 32) ||| (v % 2 ^ 32 / 2 ^ (32 - k))

/-- The member at position `r` when each member counts its capacity times. -/
def memberAt (s : State) : List Nat → Nat → Option Nat
  | [], _ => none
  | m :: t, r => if r < capOf s m then some m else memberAt s t (r - capOf s m)

/-- The core posy the hash chooses from posy `x` at depth `d` (05 R174); a posy of capacity 0 keeps the item. -/
def hashPosy (s : State) (h : Nat) : Nat → Nat → Nat → Nat
  | 0, _, x => x
  | n + 1, d, x => match posyRec s x with
    | some r =>
      if r.isSet then
        let ms := members s x
        let tot := (ms.map (capOf s)).sum
        match memberAt s ms (rol32 h (5 * d) * tot / 2 ^ 32) with
        | some m => hashPosy s h n (d + 1) m
        | none => x
      else x
    | none => x

/-- A worker thread that waits in GETW is eligible (05 R171). -/
def eligible (s : State) (tid : Nat) : Bool := decide ((thr s tid).st = .getw) && !isSup s tid

/-- The eligible threads of a posy's subtree. -/
def eligIn (s : State) (x : Nat) : List Nat :=
  (((posyCores s 9 x).map (workersOf s)).flatten).filter (eligible s)

/-- Those eligible for an item that avoids a core: threads of other cores whenever there is one (18 R478). -/
def eligFor (s : State) (x : Nat) (avoid : Option Nat) : List Nat :=
  let l := eligIn s x
  match avoid with
  | none => l
  | some c =>
    let l' := l.filter (fun t => t / 8 != c)
    if l'.isEmpty then l else l'

/-- The current value CUR[x][m] (05 R173). -/
def curOf (s : State) (x m : Nat) : Int := mget s.dsp.cur (x * 256 + m) 0

/-- Set CUR[x][m]. -/
def setCur (x m : Nat) (v : Int) (s : State) : State :=
  { s with dsp := { s.dsp with cur := mput s.dsp.cur (x * 256 + m) v 0 } }

/-- Every CUR of posy `x` returns to 0 (05 R173). -/
def curClear (x : Nat) (s : State) : State :=
  { s with dsp := { s.dsp with cur := mclear s.dsp.cur (x * 256) 256 } }

/-- pick(x) of R173: the chosen member and the new state. -/
def spreadPick (x : Nat) (avoid : Option Nat) (s : State) : Option Nat × State :=
  let ok := eligFor s x avoid
  let es := (members s x).filter (fun m => (eligIn s m).any (fun t => ok.contains t))
  let tot := (es.map (capOf s)).sum
  let s := es.foldl (fun s m => setCur x m (curOf s x m + (capOf s m : Int)) s) s
  match es.foldl (fun o m => match o with
      | none => some m
      | some b => if curOf s x b < curOf s x m then some m else some b) (none : Option Nat) with
  | none => (none, s)
  | some m => (some m, setCur x m (curOf s x m - (tot : Int)) s)

/-- Walk from posy `x` down to a core posy (05 R171). -/
def spreadWalk (avoid : Option Nat) : Nat → Nat → State → Option Nat × State
  | 0, _, s => (none, s)
  | n + 1, x, s => match posyRec s x with
    | none => (none, s)
    | some r =>
      if r.isSet then
        match spreadPick x avoid s with
        | (some m, s) => spreadWalk avoid n m s
        | (none, s) => (none, s)
      else (some x, s)

/-- An item of the matching store. -/
def itemOf (s : State) (e : Nat) : Option Item := mfind s.dsp.items e

/-- Put or replace an item. -/
def setItem (e : Nat) (it : Item) (s : State) : State := { s with dsp := { s.dsp with items := mins s.dsp.items e it } }

/-- Free an entry; GEN advances for its next use (05 R166). -/
def itemFree (e : Nat) (s : State) : State :=
  { s with dsp := { s.dsp with items := mdel s.dsp.items e,
                               gens := mmod s.dsp.gens e 0 (fun g => (g + 1) % 65536) } }

/-- The WID of an entry (05 R166). -/
def widOf (s : State) (e : Nat) : Nat := mget s.dsp.gens e 0 * 65536 + e

/-- A packet context (05 R176). -/
def ctxOf (s : State) (x : Nat) : Ctx := mget s.dsp.ctxs x Ctx.init

/-- Replace a packet context. -/
def setCtx (x : Nat) (c : Ctx) (s : State) : State :=
  { s with dsp := { s.dsp with ctxs := mput s.dsp.ctxs x c Ctx.init } }

/-- The sequence of a flow: its contexts not yet released, earliest first, those UNORD included (05 R175). -/
def flowSeq (s : State) (f : Nat) : List Nat := mget s.dsp.flows f []

/-- Replace the sequence of a flow. -/
def setFlow (f : Nat) (l : List Nat) (s : State) : State := { s with dsp := { s.dsp with flows := mput s.dsp.flows f l [] } }

/-- The head of a flow: its earliest context that is neither released nor UNORD (05 R177). -/
def flowHead (s : State) (f : Nat) : Option Nat :=
  (flowSeq s f).find? (fun x => match (ctxOf s x).st with
    | .unord => false
    | _ => true)

/-- A context that is free, at or after a free choice of the device. -/
def freeCtx (s : State) : Option Nat × State :=
  let (k, s) := drawPick 8192 s
  match findFrom (fun c => !mhas s.dsp.ctxs (c % 8192)) k 8192 with
  | some c => (some (c % 8192), s)
  | none => (none, s)

/-- An entry for an item that is no packet's, at or after a free choice of the device (05 R164). -/
def freeEntry (s : State) : Option Nat × State :=
  let (k, s) := drawPick 8192 s
  match findFrom (fun c => !mhas s.dsp.items (8192 + c % 8192)) k 8192 with
  | some c => (some (8192 + c % 8192), s)
  | none => (none, s)

/-- A thread in an order wait becomes READY and executes its instruction again once its context is the head of its flow
or UNORD (05 R179). -/
def orderWake (s : State) : State :=
  s.cores.thr.foldl (fun s p =>
    if decide (liveSt p.2 = .blocked) && decide (p.2.wait = .order) &&
        (match p.2.ctx with
          | some x => decide ((ctxOf s x).st = .unord) || flowHead s (ctxOf s x).flow == some x
          | none => true)
    then thrMod p.1 (fun t => if t.st = .stopped then { t with back := .ready, wait := .none }
      else { t with st := .ready, wait := .none }) s
    else s) s

/-- A new context of an instance at the end of a flow's sequence (05 R175). -/
def ctxNew (i f : Nat) (cell : Option Nat) (st : CtxSt) (s : State) : Option Nat × State :=
  match freeCtx s with
  | (none, s) => (none, s)
  | (some x, s) =>
    let s := setCtx x { st := st, inst := i, flow := f, cell := cell, disp := .none } s
    let s := setFlow f (flowSeq s f ++ [x]) s
    let s := if ctxFree s i = 0 then { s with port := { s.port with noCtx := mins s.port.noCtx i s.clk.fab } } else s
    (some x, s)

/-- DSP_CNT[i][k] (05 R189). -/
def dspCnt (i k : Nat) : Nat := 0x2001C00 + 0x20 * i + 4 * k

/-- A packet takes a context, and its item is created (05 R162); a DIRECT one is DONE at once. A packet whose target posy
is no posy of its instance any more is dropped. -/
def pktItem (cell : Nat) (s : State) : State :=
  match pktOf s cell with
  | none => s
  | some p =>
    if p.direct then
      match ctxNew p.inst p.flow (some cell) .done s with
      | (some x, s) => setCtx x { ctxOf s x with disp := .send p.queue } s
      | (none, s) => s
    else if (posyRec s p.posy).all (fun r => r.inst != p.inst) then pktDrop 0x46 cell s
    else match ctxNew p.inst p.flow (some cell) .mtch s with
      | (none, s) => s
      | (some x, s) =>
        let it : Item :=
          { kind := 0, prio := p.wprio, ordered := true, handoff := false, inst := p.inst, oflow := p.flow, posy := p.posy,
            slots := [1, if p.lkp.isEmpty then 0 else 2, if p.scan.isSome then 3 else 0, 0], pkt := pktHandle p.inst cell,
            arg := 0, st := .waiting, got := [], miss := [], msg := [], cell := some cell, ctx := some x,
            created := s.clk.fab, readyAt := 0, list := 0, exec := 0, seq := p.jseq, edits := p.edits, avoid := none }
        cnt (dspCnt p.inst 0) (setItem x it s)

/-- The pipe whose context-wait list of instance `i` is served next (05 R169). -/
def waitPipe (s : State) (i : Nat) : Option Nat :=
  ((List.range 4).map (fun k => (mget s.dsp.waitRot i 0 + k) % 4)).find? (fun p => !(mget s.dsp.wait (i * 4 + p) []).isEmpty)

/-- Free contexts go to an instance's waiting packets in rotating pipe order (05 R169). -/
def ctxServe (i : Nat) : Nat → State → State
  | 0, s => s
  | n + 1, s =>
    if ctxFree s i = 0 then s
    else match waitPipe s i with
      | none => s
      | some p => match mget s.dsp.wait (i * 4 + p) [] with
        | [] => s
        | c :: t =>
          ctxServe i n (pktItem c { s with dsp := { s.dsp with
            wait := mput s.dsp.wait (i * 4 + p) t [], waitRot := mput s.dsp.waitRot i ((p + 1) % 4) 0 } })

/-- A packet asks for a context: it waits in its pipe's list until its turn (05 R169). -/
def ctxAsk (cell : Nat) (s : State) : State :=
  match pktOf s cell with
  | none => s
  | some p =>
    let s := setPkt cell { p with since := s.clk.fab } s
    let k := p.inst * 4 + p.pipe
    let s := { s with dsp := { s.dsp with wait := mput s.dsp.wait k (mget s.dsp.wait k [] ++ [cell]) [] } }
    ctxServe p.inst (((List.range 4).map (fun q => (mget s.dsp.wait (p.inst * 4 + q) []).length)).sum) s

/-- A context returns to FREE and its entry with it (05 R176); its instance has a free context again (03 R116). -/
def ctxToFree (x : Nat) (s : State) : State :=
  let c := ctxOf s x
  let s := setFlow c.flow ((flowSeq s c.flow).filter (fun y => y != x)) s
  let s := setCtx x Ctx.init s
  let s := if mhas s.dsp.items x then itemFree x s else s
  let s := orderWake { s with port := { s.port with noCtx := mdel s.port.noCtx c.inst } }
  ctxServe c.inst 8192 s

/-- The copies of original cells saved for re-execution are freed when their item is disposed of (18 R476). -/
def savedFree (cell : Nat) (s : State) : State :=
  match pktOf s cell with
  | some p => setPkt cell { p with saved := [] }
      { s with port := { s.port with sharedUsed := s.port.sharedUsed - p.saved.length } }
  | none => s

/-- The trap queue of an instance: QUEUE_BASE + TRAPQ where TRAPQ names a queue of its host port (16 R428). -/
def trapQueue (s : State) (i : Nat) : Option Nat :=
  let q := rf s (0x3F88000 + 4 * i) 31 16
  match instRec s i, hostPort s i with
  | some r, some _ => if q = 0xFFFF then none else some (r.qBase + q)
  | _, _ => none

/-- Carry out the disposition of a packet at its release (05 R177, 09 R269, R271): a sent packet goes to the traffic
manager, a trapped one to its instance's host queue, a recirculated one to port 120 through the editor. -/
def settle (cell : Nat) (d : Disp) (s : State) : State :=
  match pktOf s cell with
  | none => s
  | some p => match d with
    | .none => s
    | .void => s
    | .send q =>
      let s := setPkt cell { p with queue := q } s
      { s with port := { s.port with toTm := s.port.toTm ++ [cell] } }
    | .drop r => pktDrop r cell s
    | .host code =>
      match trapQueue s p.inst with
      | some q =>
        let s := setPkt cell { p with queue := q, trap := some code } s
        { s with port := { s.port with toTm := s.port.toTm ++ [cell] } }
      | none => pktDrop 0x53 cell s
    | .recirc =>
      if p.pass = 3 then pktDrop 0x28 cell s
      else { s with port := { s.port with toEdit := s.port.toEdit ++
        [{ cell := cell, port := 120, cls := 0, bytes := [], ptp := none }] } }

/-- Release one context: its packet's disposition is carried out and it becomes FREE (05 R177). -/
def ctxRelease (x : Nat) (s : State) : State :=
  let c := ctxOf s x
  let s := cnt (0x2401100 + 0x20 * c.inst) s
  let s := match c.disp with
    | .void => cnt (0x2401104 + 0x20 * c.inst) s
    | _ => s
  let s := ctxToFree x s
  match c.cell with
  | some cell => settle cell c.disp s
  | none => s

/-- A context enters DONE with a disposition; an UNORD one is disposed of without a turn (05 R176, R178). -/
def ctxDone (x : Nat) (d : Disp) (s : State) : State :=
  let c := ctxOf s x
  let s := match c.cell with
    | some cell => savedFree cell s
    | none => s
  match c.st with
  | .unord =>
    let s := cnt (0x2401110 + 0x20 * c.inst) s
    let s := ctxToFree x s
    match c.cell with
    | some cell => settle cell d s
    | none => s
  | _ =>
    let s := if mhas s.dsp.items x then itemFree x s else s
    setCtx x { c with st := .done, disp := d } s

/-- A context is made VOID: its packet is dropped at once with `reason` and it enters DONE, keeping its place
(05 R180); an UNORD one has no place to keep. -/
def ctxVoid (x reason : Nat) (s : State) : State :=
  let c := ctxOf s x
  let s := match c.cell with
    | some cell => pktDrop reason cell s
    | none => s
  ctxDone x .void (setCtx x { ctxOf s x with cell := none } s)

/-- The list an item becomes ready in: in HASH mode that of the core posy the hash chose (05 R170, R174). -/
def readyList (s : State) (it : Item) : Nat :=
  match it.cell with
  | some c => if rb s (0x2008000 + 4 * it.inst) 31 then
      match pktOf s c with
      | some p => hashPosy s (pktHash s p) 9 0 it.posy
      | none => it.posy
    else it.posy
  | none => it.posy

/-- Put an entry at the tail of a ready level. -/
def readyPush (list prio e : Nat) (s : State) : State :=
  { s with dsp := { s.dsp with ready := mmod s.dsp.ready (list * 8 + prio) [] (fun l => l ++ [e]) } }

/-- Put an entry at the head of a ready level (18 R478). -/
def readyHead (list prio e : Nat) (s : State) : State :=
  { s with dsp := { s.dsp with ready := mmod s.dsp.ready (list * 8 + prio) [] (fun l => e :: l) } }

/-- Take an entry out of its ready level. -/
def readyDrop (list prio e : Nat) (s : State) : State :=
  { s with dsp := { s.dsp with ready := mmod s.dsp.ready (list * 8 + prio) [] (fun l => l.filter (fun x => x != e)) } }

/-- The context of an item moves with it. -/
def itemCtxSt (it : Item) (st : CtxSt) (s : State) : State :=
  match it.ctx with
  | some x =>
    let c := ctxOf s x
    match c.st with
    | .unord => s
    | _ => setCtx x { c with st := st } s
  | none => s

/-- An item enters its ready list (05 R165, R170). -/
def itemReady (e : Nat) (s : State) : State :=
  match itemOf s e with
  | none => s
  | some it =>
    let l := readyList s it
    let s := setItem e { it with st := .ready, readyAt := s.clk.fab, list := l } s
    readyPush l it.prio e (itemCtxSt it .ready s)

/-- The slots an item declares. -/
def declared (it : Item) : List Nat := (List.range 4).filter (fun k => (it.slots[k]?).getD 0 != 0)

/-- An item that holds every declared operand becomes ready (05 R165). -/
def itemCheck (e : Nat) (s : State) : State :=
  match itemOf s e with
  | none => s
  | some it =>
    match it.st with
    | .waiting =>
      if (declared it).all (fun k => it.got.contains k || it.miss.contains k) then itemReady e s else s
    | _ => s

/-- Items of an instance that are not packets' (05 R164). -/
def itemsHeld (s : State) (i : Nat) : Nat := (s.dsp.items.filter (fun p => decide (8192 ≤ p.1) && p.2.inst == i)).length

/-- A non-packet item gets its ITEMSEQ and its ITEM record (18 R494). -/
def itemRecord (creator : Option Nat) (e : Nat) (ws : List Word) (s : State) : State :=
  match itemOf s e with
  | none => s
  | some it =>
    if jnlOn s && jnlInst s it.inst then
      let q := s.jnl.itemSeq
      let s := setItem e { it with seq := some q } { s with jnl := { s.jnl with itemSeq := q + 1 } }
      let w := fun k => ((ws[k]?).getD 0).toNat
      let who : JWho := match creator with
        | some tid => { core := tid / 8, thread := tid % 8, pass := 0, exec := 0, inst := it.inst, nonpkt := true, seq := q }
        | none => { core := 0, thread := 0, pass := 0, exec := 0, inst := it.inst, nonpkt := true, seq := q }
      jnlInput 7 who [w 1 * 2 ^ 32 + w 0, w 3 * 2 ^ 32 + w 2] s
    else s

/-- Judge a descriptor of an item a program (KIND 1), a timer (2) or the host (3) creates (05 R163). `tctx` is the
packet context of the creating thread. -/
def itemJudge (i want : Nat) (tctx : Option Nat) (ws : List Word) (s : State) : Nat :=
  let w0 := (ws[0]?).getD 0
  let w1 := (ws[1]?).getD 0
  let w2 := (ws[2]?).getD 0
  let ordered := bit w0 26
  let handoff := bit w0 25
  let kinds := [bits w1 14 12, bits w1 17 15, bits w1 20 18, bits w1 23 21]
  if bits w0 31 30 != want || bits w0 24 21 != 0 || bits w0 20 16 != 0 || bits w1 11 0 != 0 || w2 != 0 ||
      (handoff && want != 1) || (!ordered && bits w0 15 0 != 0) || kinds.any (fun k => k != 0 && k != 4) then 1
  else if (match posyRec s (bits w1 31 24) with
      | some r => r.inst != i
      | none => true) || (ordered && !flowOf s i (bits w0 15 0)) || (want == 3 && decide (insState s i ≠ .run)) then 2
  else if handoff && (ordered || tctx.isNone) then 3
  else if !handoff && decide (rf s (0x2008000 + 4 * i) 13 0 ≤ itemsHeld s i) then 4
  else if ordered && decide (ctxFree s i = 0) then 5
  else 0

/-- The item a descriptor describes. -/
def itemFrom (i : Nat) (ws : List Word) (now : Nat) : Item :=
  let w0 := (ws[0]?).getD 0
  let w1 := (ws[1]?).getD 0
  { kind := bits w0 31 30, prio := bits w0 29 27, ordered := bit w0 26, handoff := bit w0 25, inst := i,
    oflow := bits w0 15 0, posy := bits w1 31 24,
    slots := [bits w1 14 12, bits w1 17 15, bits w1 20 18, bits w1 23 21], pkt := (ws[2]?).getD 0,
    arg := (ws[3]?).getD 0, st := .waiting, got := [], miss := [], msg := [], cell := none, ctx := none,
    created := now, readyAt := 0, list := 0, exec := 0, seq := none, edits := [], avoid := none }

/-- Create an accepted item that takes over no packet; its entry is answered. -/
def itemMake (i : Nat) (creator : Option Nat) (ws : List Word) (s : State) : Option Nat × State :=
  let it := itemFrom i ws s.clk.fab
  match freeEntry s with
  | (none, s) => (none, s)
  | (some e, s) =>
    let (x, s) := if it.ordered then ctxNew i it.oflow none .mtch s else (none, s)
    let s := setItem e { it with ctx := x } s
    let s := itemRecord creator e ws s
    (some e, itemCheck e (cnt (dspCnt i 0) s))

/-- Create an item of a timer, the host or a program that hands nothing off: the status of R163 and the entry. -/
def itemCreate (i want : Nat) (creator : Option Nat) (ws : List Word) (s : State) : Nat × Option Nat × State :=
  let st := itemJudge i want none ws s
  if st = 0 then
    match itemMake i creator ws s with
    | (some e, s) => (0, some e, s)
    | (none, s) => (4, none, cnt (dspCnt i 7) s)
  else (st, none, cnt (dspCnt i 7) s)

/-- Who an INPUT record about a waiting item names (18 R494). -/
def itemWho (s : State) (it : Item) : JWho :=
  match it.cell with
  | some c =>
    let p := (pktOf s c).getD Pkt.init
    { core := 0, thread := 0, pass := p.pass, exec := it.exec, inst := it.inst, nonpkt := false, seq := p.jseq.getD 0 }
  | none => { core := 0, thread := 0, pass := 0, exec := it.exec, inst := it.inst, nonpkt := true, seq := it.seq.getD 0 }

/-- A message to slot `slot` of the item a WID names, from instance `src`: its status (05 R166) and effect. -/
def msgSend (src wid slot : Nat) (data : List Word) (s : State) : Nat × State :=
  let e := wid % 16384
  let stale := (1, cnt (dspCnt src 2) s)
  if nbits wid 15 14 != 0 || mget s.dsp.gens e 0 != wid / 65536 then stale
  else match itemOf s e with
    | none => stale
    | some it =>
      match it.st with
      | .waiting =>
        if it.inst != src then (2, cnt (dspCnt src 3) s)
        else if 4 ≤ slot || (it.slots[slot]?).getD 0 != 4 || it.got.contains slot then (3, s)
        else
          let s := setItem e { it with got := slot :: it.got, msg := mins it.msg slot data } s
          let w := fun k => ((data[k]?).getD 0).toNat
          let s := jnlInput 8 (itemWho s it) [slot, w 1 * 2 ^ 32 + w 0, w 3 * 2 ^ 32 + w 2] s
          (0, itemCheck e s)
      | _ => stale

/-- The item leaves the store wherever it stands: its ready entry and its context's wait go with it. -/
def itemDiscard (e : Nat) (s : State) : State :=
  match itemOf s e with
  | none => s
  | some it =>
    let s := match it.st with
      | .ready => readyDrop it.list it.prio e s
      | _ => s
    itemFree e s

/-- Items of a list are mapped again from their target posy, keeping their ready time (05 R174). -/
def itemRemap (e : Nat) (s : State) : State :=
  match itemOf s e with
  | none => s
  | some it => match it.st with
    | .ready =>
      let s := readyDrop it.list it.prio e s
      let l := readyList s it
      readyPush l it.prio e (setItem e { it with list := l } s)
    | _ => s

/-- Every ready item whose list is no longer its core's is mapped again. -/
def remapAll (s : State) : State :=
  s.dsp.items.foldl (fun s p => match p.2.st with
    | .ready =>
      if (match posyRec s p.2.list with
          | some r => !r.isSet && coreGone s r.core
          | none => true) then itemRemap p.1 s else s
    | _ => s) s

end Sys2Proof.Machine
end

