-- ==== Sys2Proof/Machine/EventOps.lean ====
section
/-! DEFINITION. Events to supervisors and threads (06_cores_threads.md R201, R205 to R207, 09_petal_packet_ops.md R267,
R283, R284). -/

namespace Sys2Proof.Machine

/-- CORE_CNT[c][k] (06 R213). -/
def coreCnt (c k : Nat) : Nat := 0x2806000 + 0x20 * c + 4 * k

/-- The four words of an event record (06 R206). -/
def evWords (ovf : Bool) (e : Ev) : List Word :=
  [w32 (e.code % 256 * 2 ^ 24 + e.posy % 256 * 2 ^ 16 + e.core % 256 * 2 ^ 8 + e.thread % 8 * 2 ^ 5 + b2n ovf * 2 ^ 4),
   w32 e.pc, w32 e.info, w32 e.info2]

/-- The supervisor that receives a thread's fault, with its posy: that of the innermost posy that contains the core and
whose supervisor is another thread (06 R201); none means the steward. -/
def faultSup (s : State) (tid : Nat) : Option (Nat × Nat) :=
  (recChain s (tid / 8)).findSome? (fun x => match supOf s x with
    | some u => if u = tid then none else some (x, u)
    | none => none)

/-- Start FAULT_US of the thread whose FAULT record has entered the queue (06 R207). -/
def evStamp (e : Ev) (s : State) : State :=
  if e.code = 0x60 then
    thrMod (tidOf e.core e.thread) (fun t => { t with flt := t.flt.map (fun f => match f.queuedAt with
      | some _ => f
      | none => { f with queuedAt := some s.clk.fab }) }) s
  else s

/-- Take waiting FAULT records into the queue while it has room (06 R207). -/
def evRefill (tid : Nat) (s : State) : State :=
  let t := thr s tid
  match t.fq with
  | [] => s
  | e :: r => if t.evq.length < 16 then evStamp e (setThr tid { t with evq := t.evq ++ [e], fq := r } s) else s

/-- The oldest record of its queue completes a supervisor's GETW (09 R267). -/
def evDeliver (tid : Nat) (s : State) : State :=
  let t := thr s tid
  match t.evq with
  | [] => s
  | e :: r =>
    let b := cblk tid
    let s := cmWords (tid / 8) b (evWords t.ovf e ++ [0xFFFFFFFF]) s
    let t := setG { t with evq := r, ovf := false, runAt := s.clk.fab, st := .ready, bkSkip := false, step := if t.step = 1 then 2 else t.step } 14 (tvInt (w32 b))
    evRefill tid (commitCnt (tid / 8) (setThr tid (advance t.wnext t) s))

/-- Deliver when the supervisor waits in GETW and a record is queued. -/
def evKick (tid : Nat) (s : State) : State :=
  let t := thr s tid
  if decide (t.st = .getw) && isSup s tid && !t.evq.isEmpty then evDeliver tid s else s

/-- An event for a supervisor thread (06 R207): a full queue keeps a FAULT waiting and discards any other event. -/
def evPush (tid : Nat) (e : Ev) (s : State) : State :=
  let t := thr s tid
  if t.evq.length < 16 && t.fq.isEmpty then
    evKick tid (evStamp e (setThr tid { t with evq := t.evq ++ [e] } s))
  else if e.code = 0x60 then setThr tid { t with fq := t.fq ++ [e] } s
  else setThr tid { t with ovf := true } (cnt (coreCnt (tid / 8) 4) s)

/-- An event for the supervisor of a posy, or for the steward where there is none (06 R201, R212): the spec gives the
steward an effect of faults only. -/
def evPosy (x : Nat) (e : Ev) (s : State) : State :=
  match supOf s x with
  | some u => evPush u e s
  | none => s

/-- The position of the newest USER_EVENT of a pending list. -/
def lastUser : List Ev → Nat → Option Nat → Option Nat
  | [], _, o => o
  | e :: t, k, o => lastUser t (k + 1) (if e.code = 0x6A then some k else o)

/-- Whether EVWAIT for number `n` takes a record (09 R283). -/
def evTakes (n : Nat) (e : Ev) : Bool := e.code == 0x62 || (e.code == 0x6A && e.info % 256 == n)

/-- The first record EVWAIT for number `n` takes, and the list without it. -/
def evTake (n : Nat) : List Ev → Option (Ev × List Ev)
  | [] => none
  | e :: t => if evTakes n e then some (e, t) else match evTake n t with
    | some (x, r) => some (x, e :: r)
    | none => none

/-- A FORCED record received is a journal input (11 R326, 18 R494). -/
def evInput (tid : Nat) (e : Ev) (s : State) : State :=
  if e.code = 0x62 then jnlInput 4 (jwho s tid) [e.info] s else s

/-- A thread blocked in EVWAIT takes its record when one is pending: rd := INFO, Z := 1, V := 1 for FORCED. -/
def evWake (tid : Nat) (s : State) : State :=
  let t := thr s tid
  match t.wait with
  | .event n =>
    if liveSt t = .blocked then
      match evTake n t.pend with
      | some (e, r) =>
        let s := evInput tid e s
        commitCnt (tid / 8) <| thrMod tid (fun t => wake (advance t.wnext (setG { t with pend := r, z := true, v := decide (e.code = 0x62) }
          t.wrd (tvInt (w32 e.info))))) s
      | none => s
    else s
  | _ => s

/-- A FORCED or USER_EVENT record for a thread's pending list (09 R284). Answers whether it entered. -/
def pendPush (tid : Nat) (e : Ev) (s : State) : Bool × State :=
  let t := thr s tid
  if t.pend.length < 8 then (true, evWake tid (setThr tid { t with pend := t.pend ++ [e] } s))
  else if e.code = 0x62 then
    match lastUser t.pend 0 none with
    | some k => (true, evWake tid (setThr tid { t with pend := t.pend.eraseIdx k ++ [e] } s))
    | none => (false, cnt (coreCnt (tid / 8) 4) s)
  else (false, s)

/-- A lock is force-released (11 R325): the former holder receives FORCED and the lock is granted. -/
def lockForce (n : Nat) (s : State) : State :=
  match (lockOf s n).holder with
  | none => s
  | some h =>
    let s := lockRelease n 2 s
    let s := if h = stwId then s
      else match (thr s h).st with
        | .off => s
        | .bound => s
        | _ => (pendPush h { code := 0x62, posy := 0xFF, core := h / 8, thread := h % 8, pc := 0, info := n, info2 := 0 } s).2
    lockGrant n s

end Sys2Proof.Machine
end

