-- ==== Sys2Proof/Machine/PoolOps.lean ====
section
/-! DEFINITION. Buffer pools: the free store, allocation, the instance gate and frees on their way (12_buffer_pools.md). -/

namespace Sys2Proof.Machine

/-- BPM_POOLCFG[k]; BASE, RING BASE and COUNT follow it. -/
def poolCfg (k : Nat) : Nat := 0x3208000 + 0x10 * k

/-- BPM_CNT[k][j]. -/
def bpmCnt (k j : Nat) : Nat := 0x3202000 + 0x20 * k + 4 * j

/-- The free store of a pool. -/
def poolOf (s : State) (k : Nat) : Pool := mget s.bpm.pool k Pool.init

/-- Replace the free store of a pool. -/
def setPool (k : Nat) (p : Pool) (s : State) : State := { s with bpm := { s.bpm with pool := mput s.bpm.pool k p Pool.init } }

/-- COUNT of a pool. -/
def poolCount (s : State) (k : Nat) : Nat := rf s (poolCfg k + 12) 20 0

/-- VALID of a pool. -/
def poolValid (s : State) (k : Nat) : Bool := rb s (poolCfg k) 31

/-- The buffer size of a pool (R333). -/
def poolSize (s : State) (k : Nat) : Nat := 256 * 2 ^ rf s (poolCfg k) 23 20

/-- The instance whose record names pool `k` (R333). -/
def poolInst (s : State) (k : Nat) : Option Nat :=
  match s.img.inst.find? (fun r => r.pools.testBit k) with
  | some r => some r.inst
  | none => none

/-- Pool `k` is in the POOLS bitmap of instance `i`. -/
def ownsPool (s : State) (i k : Nat) : Bool := (instF s i (·.pools)).testBit k

/-- Initialise a pool: FRESH 0, an empty ring and empty caches (R338). Frees of its buffers under way are void. -/
def poolInit (k : Nat) (s : State) : State :=
  setPool k Pool.init { s with bpm := { s.bpm with frees := s.bpm.frees.filter (fun f => f.1 != k) } }

/-- The pipe that serves a core (R340). -/
def pipeOf (s : State) (c : Nat) : Nat := clusterOf s c % 4

/-- The cache of a pipe, newest entry first. -/
def cacheOf (p : Pool) (q : Nat) : List Nat := mget p.cache q []

/-- Replace the cache of a pipe. -/
def setCache (p : Pool) (q : Nat) (l : List Nat) : Pool := { p with cache := mput p.cache q l [] }

/-- A pool-buffer handle (R337). -/
def bufHandle (i k j : Nat) : Word := w32 (2 ^ 31 + i % 32 * 2 ^ 25 + k % 16 * 2 ^ 21 + j % 2 ^ 20)

/-- alloc(k0, p) of R342 along the chain from pool `k`: the handle, or none for POOL_EMPTY. A chain holds at most 9
pools. -/
def poolAlloc (i k0 q : Nat) : Nat → Nat → State → Option Word × State
  | 0, _, s => (none, cnt (bpmCnt k0 2) s)
  | n + 1, k, s =>
    let p := poolOf s k
    match (if poolValid s k then cacheOf p q else []) with
    | j :: r =>
      let s := setPool k (setCache p q r) s
      let s := cnt (bpmCnt k0 0) s
      let s := if k = k0 then s else cnt (bpmCnt k0 1) s
      (some (bufHandle i k j), s)
    | [] =>
      if rb s (poolCfg k) 8 then poolAlloc i k0 q n (rf s (poolCfg k) 3 0) s
      else (none, cnt (bpmCnt k0 2) s)

/-- The fullest cache of a pool other than pipe `q`'s; of those tied, the lowest pipe's (R340). -/
def fullest (p : Pool) (q : Nat) : Option Nat :=
  ([0, 1, 2, 3].filter (fun x => x != q && !(cacheOf p x).isEmpty)).foldl (fun o x => match o with
    | none => some x
    | some b => if (cacheOf p b).length < (cacheOf p x).length then some x else some b) none

/-- Rebalance: an ALLOC that found pipe `q`'s cache empty with nothing in the ring or fresh range takes the oldest half
of the fullest other cache, at least one entry (R340). -/
def poolRebalance (k q : Nat) (s : State) : State :=
  let p := poolOf s k
  if poolValid s k && (cacheOf p q).isEmpty && p.ring.isEmpty && decide (poolCount s k ≤ p.fresh) then
    match fullest p q with
    | none => s
    | some x =>
      let l := cacheOf p x
      let m := max 1 (l.length / 2)
      let p := setCache (setCache p q (l.drop (l.length - m))) x (l.take (l.length - m))
      cnt (bpmCnt k 5) (setPool k p s)
  else s

/-- The pools an ALLOC examined and found empty, in the order of the chain (R342). -/
def poolEmpties (s : State) (q : Nat) : Nat → Nat → List Nat
  | 0, _ => []
  | n + 1, k =>
    if poolValid s k && !(cacheOf (poolOf s k) q).isEmpty then []
    else k :: (if rb s (poolCfg k) 8 then poolEmpties s q n (rf s (poolCfg k) 3 0) else [])

/-- ALLOC at the cache arbiter: the request is served first, the rebalance it starts benefits later ones (R342). -/
def allocOp (i k q : Nat) (s : State) : Option Word × State :=
  let es := poolEmpties s q 9 k
  let (h, s) := poolAlloc i k q 9 k s
  (h, es.foldl (fun s x => poolRebalance x q s) s)

/-- Refill of a cache below 16 entries: up to 32 entries from the ring's head, then from the fresh range (R340). -/
def poolRefill (k q : Nat) (s : State) : State :=
  let p := poolOf s k
  let l := cacheOf p q
  if poolValid s k && decide (l.length < 16) then
    let fromRing := p.ring.take 32
    let m := min (32 - fromRing.length) (poolCount s k - p.fresh)
    let fromFresh := (List.range m).map (fun j => p.fresh + j)
    let p := { p with ring := p.ring.drop 32, fresh := p.fresh + m }
    setPool k (setCache p q ((fromRing ++ fromFresh).reverse ++ l)) s
  else s

/-- Spill of a cache above 48 entries: its 16 oldest entries go to the ring's tail, those that do not fit are discarded
and counted (R340, R341). -/
def poolSpill (k q : Nat) (s : State) : State :=
  let p := poolOf s k
  let l := cacheOf p q
  if poolValid s k && decide (48 < l.length) then
    let old := (l.drop (l.length - 16)).reverse
    let room := poolCount s k - p.ring.length
    let p := setCache { p with ring := p.ring ++ old.take room } q (l.take (l.length - 16))
    cntAdd (bpmCnt k 4) (16 - room) (setPool k p s)
  else s

/-- An accepted free places the index as the newest entry of its cache (R345). A cache holds 64 entries (R338): one
that is full spills first. -/
def poolFree1 (k q j : Nat) (s : State) : State :=
  let s := if 64 ≤ (cacheOf (poolOf s k) q).length then poolSpill k q s else s
  let p := poolOf s k
  setPool k (setCache p q (j :: cacheOf p q)) s

/-- The thread's packet leaves it with a disposition (09 R269): its context enters DONE with the thread's edit list. -/
def dispose (tid : Nat) (d : Disp) (s : State) : State :=
  let t := thr s tid
  match t.ctx with
  | none => s
  | some x =>
    let s := match (ctxOf s x).cell with
      | some cell => match pktOf s cell with
        | some p => setPkt cell { p with edits := t.edit } s
        | none => s
      | none => s
    let s := thrMod tid (fun t => { t with pkt := TV.void, ctx := none, entry := none, edit := [] }) s
    ctxDone x d s

/-- The first cell of the packet whose context a thread holds. -/
def thrCell (s : State) (tid : Nat) : Option Nat :=
  match (thr s tid).ctx with
  | some x => (ctxOf s x).cell
  | none => none

/-- The outcomes of the instance gate (R344). -/
inductive Gate where
  | inst | malformed | stale | packet | ok
  deriving DecidableEq, Repr

/-- Judge a handle at the instance gate for instance `i`, whose freeing thread holds the packet at `cell` (R344). -/
def gateJudge (s : State) (i : Nat) (cell : Option Nat) (h : Word) : Gate :=
  if !bit h 31 || (bit h 30 && (bits h 24 21 != 0 || bits h 20 18 != 0)) || (!bit h 30 && bit h 20) then .malformed
  else if bits h 29 25 != i then .inst
  else if bit h 30 then (match cell with
    | some c => if h = pktHandle i c then .packet else .stale
    | none => .stale)
  else
    let k := bits h 24 21
    if !ownsPool s i k || !poolValid s k || decide (poolCount s k ≤ bits h 19 0) then .malformed else .ok

/-- BPM_GATECNT[i][r]. -/
def gateCnt (i r : Nat) : Nat := 0x3203000 + 0x10 * i + 4 * r

/-- A refusal is counted and reported to the supervisor a fault of the thread would go to (R346). -/
def gateRefuse (i tid r : Nat) (s : State) : State :=
  let s := cnt (gateCnt i r) s
  match faultSup s tid with
  | some (x, u) => evPush u { code := 0x63, posy := x, core := tid / 8, thread := tid % 8, pc := 0, info := 0, info2 := 0 } s
  | none => s

/-- Pass a handle to the instance gate (R344 to R346). -/
def gateFree (i tid : Nat) (h : Word) (s : State) : State :=
  match gateJudge s i (thrCell s tid) h with
  | .inst => gateRefuse i tid 0 s
  | .malformed => gateRefuse i tid 1 s
  | .stale => gateRefuse i tid 2 s
  | .packet => dispose tid (.drop 0x42) s
  | .ok =>
    let s := cnt (bpmCnt (bits h 24 21) 3) s
    { s with bpm := { s.bpm with frees := s.bpm.frees ++ [(bits h 24 21, pipeOf s (tid / 8), bits h 19 0)] } }

end Sys2Proof.Machine
end

