-- ==== Sys2Proof/Machine/FaultOps.lean ====
section
/-! DEFINITION. Thread restart, faults, re-execution, core retirement and debugger stops (06_cores_threads.md R199 to
R212, 18_resilience_replay.md R476 to R479). -/

namespace Sys2Proof.Machine

/-- CORE_FLTLOG, CORE_FLTPC and CORE_FLTINFO of a core (R213). -/
def faultLog (tid code cls pc info2 : Nat) (s : State) : State :=
  let a := 0x2805400 + 0x10 * (tid / 8)
  let s := rset s a (w32 (code % 256 * 2 ^ 24 + tid % 8 * 2 ^ 21 + cls % 2 * 2 ^ 20))
  rset (rset s (a + 4) (w32 pc)) (a + 8) (w32 info2)

/-- The buffers a thread's registers and coprocessor contexts hold as BUF, other than the packet of its item
(18 R477, 10 R303). -/
def thrBufs (s : State) (tid : Nat) : List Word :=
  let t := thr s tid
  let k := clusterOf s (tid / 8)
  let own := match thrCell s tid with
    | some c => [pktHandle (tinst s tid) c]
    | none => []
  let g := (t.g.filter (fun p => p.2.tag == tBUF)).map (fun p => p.2.v)
  let c := (t.cps.map (fun p => cpxBufs (cpxOf s k p.1 p.2))).flatten
  (g ++ c).filter (fun h => !own.contains h)

/-- The entry at which a thread starts: SUP_ENTRY or WORKER_ENTRY of the MODE record (02 R64). -/
def entryOf (s : State) (tid : Nat) (sup : Bool) : Nat :=
  match coreMode s (tid / 8) with
  | some m => if sup then m.sup else m.worker
  | none => 0

/-- BASE_PRIO on entering BOUND: 3 for a supervisor thread and 1 for a worker thread (R196). -/
def basePrio (s : State) (tid : Nat) : Nat := if isSup s tid then 3 else 1

/-- Release what a thread holds at a restart: in a tagged posy the buffers in its registers pass the instance gate, its
contexts are released, its locks are freed ABANDONED and its requests withdrawn (11 R324, 10 R303, 18 R477). -/
def thrStrip (tid : Nat) (s : State) : State :=
  let bufs := if plainOf s tid then [] else thrBufs s tid
  let k := clusterOf s (tid / 8)
  let held := (thr s tid).cps
  let s := held.foldl (fun s p => cpxRelease k p.1 p.2 false s) s
  let s := thrMod tid (fun t => { t with g := [], wait := .none, busy := [] }) s
  let s := { s with lck := { s.lck with
      atoms := s.lck.atoms.map (fun a => if a.tid = tid then { a with tid := 5000 } else a) } }
  let s := bufs.foldl (fun s h => gateFree (tinst s tid) tid h s) s
  let s := lockAbandon (locksHeld s tid) s
  held.foldl (fun s p => cpxGrant k p.1 s) s

/-- A thread that holds nothing restarts at `pc` (R202, R204): a supervisor keeps its queued events. -/
def thrRestart (tid pc : Nat) (s : State) : State :=
  let s := thrStrip tid s
  thrMod tid (fun t => { Thread.init with
    st := .ready, pc := pc, base := basePrio s tid, runAt := s.clk.fab, evq := t.evq, ovf := t.ovf, fq := t.fq }) s

/-- A thread lets go of its item without disposing of it. -/
def thrForget (tid : Nat) (s : State) : State :=
  thrMod tid (fun t => { t with pkt := TV.void, ctx := none, entry := none, edit := [] }) s

/-- The item a thread holds is dropped (R204): a packet with `reason`, an item of another kind discarded with its
context made FREE. -/
def dropHeld (tid reason : Nat) (s : State) : State :=
  let t := thr s tid
  let s := match t.ctx with
    | some x => match (ctxOf s x).cell with
      | some _ => ctxDone x (.drop reason) s
      | none => ctxToFree x s
    | none => s
  let s := match t.entry with
    | some e => if 8192 ≤ e then itemFree e s else s
    | none => s
  thrForget tid s

/-- A thread's item is dropped and it restarts at `pc` as on a thread reset (R201, R204). -/
def thrDrop (tid reason pc : Nat) (s : State) : State := thrRestart tid pc (dropHeld tid reason (thrStrip tid s))

/-- The thread holds a packet. -/
def holdsPkt (s : State) (tid : Nat) : Bool := (thrCell s tid).isSome

/-- A FAULT record (R206). -/
def faultEv (x tid pc code cls info2 : Nat) (pkt : Bool) : Ev :=
  { code := 0x60, posy := x, core := tid / 8, thread := tid % 8, pc := pc,
    info := code + 256 * cls + 512 * b2n pkt, info2 := info2 }

/-- The steward serves a fault delivered to it: the record, and, for a program-class fault, the packet dropped and the thread
restarted at SUP_ENTRY, if it is still HELD (R201). -/
def stwServe (r : StwRec) (s : State) : State :=
  let s := ercReport 0x86 2 2 0 r.pc (some r.inst) s
  if r.drop && decide ((thr s r.tid).st = .held) then thrDrop r.tid 0x44 (entryOf s r.tid true) s else s

/-- A fault record addressed to the steward: served, or, while STW_UP is 0, put into the queue of 64 records; one that finds it
full is counted (R201, 19 R513). -/
def stwFault (r : StwRec) (s : State) : State :=
  if rb s 0x181000 30 then stwServe r s
  else if s.ctl.stwQ.length < 64 then { s with ctl := { s.ctl with stwQ := s.ctl.stwQ ++ [r] } }
  else cnt 0x382118 s

/-- A program-class fault (R200, R201, R204): the thread is HELD and its supervisor receives FAULT; with no supervisor
the steward records it, drops the packet and restarts the thread at SUP_ENTRY. `skipTo` is the address after the
instruction. -/
def progFault (tid code addr skipTo : Nat) (s : State) : State :=
  let pc := (thr s tid).pc
  let info2 := if code = 3 || code = 4 then addr else 0
  let s := cnt (coreCnt (tid / 8) 2) (faultLog tid code 0 pc info2 s)
  match faultSup s tid with
  | some (x, u) =>
    let pkt := holdsPkt s tid
    let s := thrMod tid (fun t => { t with
      st := .held, wait := .none, flt := some { code := code, skipTo := skipTo, queuedAt := none, since := s.clk.fab } }) s
    evPush u (faultEv x tid pc code 0 info2 pkt) s
  | none =>
    let s := thrMod tid (fun t => { t with
      st := .held, wait := .none,
      flt := some { code := code, skipTo := skipTo, queuedAt := some s.clk.fab, since := s.clk.fab } }) s
    stwFault ⟨tid, pc, tinst s tid, true⟩ s

/-- A packet goes back to what it was when its item was dispatched (18 R476). -/
def pktRestore (cell : Nat) (s : State) : State :=
  match pktOf s cell with
  | none => s
  | some p => setPkt cell { p with bytes := p.saved.foldl (fun b q =>
      b.take (256 * q.1) ++ q.2 ++ b.drop (256 * q.1 + q.2.length)) p.bytes } s

/-- LOC of a REEXEC_DROP record (18 R554). -/
def reexecLoc (s : State) (it : Item) : Nat :=
  match it.cell with
  | some c => match (pktOf s c).bind (·.jseq) with
    | some q => 2 ^ 32 + q
    | none => 0
  | none => match it.seq with
    | some q => 2 * 2 ^ 32 + q
    | none => 0

/-- The third counted failure of an item: its packet is dropped with DROP_REEXEC, its context becomes VOID and the
record is raised (18 R479). -/
def reexecDrop (e : Nat) (it : Item) (s : State) : State :=
  let s := ercReport 0x84 1 2 (if it.ordered || it.cell.isSome then 2 ^ 16 + (it.ctx.elim 0 (fun x => (ctxOf s x).flow)) else 0)
    (reexecLoc s it) (some it.inst) s
  let s := if 8192 ≤ e then itemFree e s else s
  match it.ctx with
  | some x => ctxVoid x 0x40 s
  | none => s

/-- The item a thread held is to be executed again; `counted`: this execution ended in a hardware-class fault of its own
thread (18 R478, R479). -/
def reexec (tid : Nat) (counted : Bool) (s : State) : State :=
  let t := thr s tid
  let s := thrForget tid s
  match t.entry with
  | none => s
  | some e => match itemOf s e with
    | none => s
    | some it =>
      let it := { it with exec := if counted then it.exec + 1 else it.exec, st := .again, avoid := some (tid / 8) }
      let s := setItem e it s
      let s := match it.cell with
        | some c => pktRestore c s
        | none => s
      if 3 ≤ it.exec then reexecDrop e it s else s

/-- The spares that can still replace a core. -/
def freeSpares (s : State) : List Nat :=
  [128, 129, 130, 131].filter (fun c => !(coreRec s c).retired && (coreRec s c).other.isNone)

/-- The hardware faults of a core within WINDOW_MS (R212). -/
def hwWindow (s : State) (c : Nat) : List Nat :=
  (coreRec s c).hw.filter (fun a => decide (s.clk.fab < a + rf s 0x2808008 15 0 * 1000000))

/-- What the threads of a core that is retired hold: the items are executed again, locks are freed (R212). -/
def retireThread (tid : Nat) (s : State) : State :=
  let s := reexec tid false s
  let s := thrStrip tid s
  setThr tid Thread.init s

/-- The queued events of a retired supervisor thread pass to the thread that takes its place (log). -/
def moveEvents (evs : List (Nat × List Ev)) (sp : Option Nat) (s : State) : State :=
  evs.foldl (fun s p => p.2.foldl (fun s e => match sp with
    | some c => evPush (tidOf c (p.1 % 8)) e s
    | none => evPosy e.posy e s) s) s

/-- Retire a core (R212): its capacity leaves, its items are executed elsewhere, its posies receive CORE_RETIRED. A
spare, if one is left, is chosen; SPARE_JOIN brings it in. -/
def retireCore (c : Nat) (s : State) : State :=
  let home := homeCore s c
  let inst := coreInst s c
  let chain := recChain s c
  let evs := (List.range 8).map (fun k => (k, (thr s (tidOf c k)).evq ++ (thr s (tidOf c k)).fq))
  let sps := freeSpares s
  let (k, s) := drawPick sps.length s
  let sp := if sps.isEmpty then none else sps[k]?
  let s := coreMod c (fun r => { r with retired := true, spareActive := false, other := if c < 128 then sp else r.other }) s
  let s := match sp with
    | some x => coreMod home (fun r => { r with retired := true, other := some x }) (coreMod x (fun r => { r with other := some home, src := some c }) s)
    | none => if c < 128 then s else coreMod home (fun r => { r with other := none }) s
  let s := cnt 0x30110C (chain.foldl (fun s x => curClear x s) s)
  let s := (List.range 8).foldl (fun s k => retireThread (tidOf c k) s) s
  let s := remapAll s
  let s := moveEvents evs sp s
  let s := ercReport 0x83 (if sp.isSome then 1 else 2) (if sp.isSome then 1 else 2) c (sp.getD 0xFF) inst s
  chain.foldl (fun s x => evPosy x { code := 0x64, posy := x, core := c, thread := 0, pc := 0, info := 0, info2 := 0 } s) s

/-- A hardware-class fault (R202): masked; the thread restarts at its entry, its item is executed again, FAULT carries
CLASS 1 and the fault counts toward retirement. The UNIT of the record holds the core in [15:8] and the thread in [2:0],
as the thread names of 08 R261 do (DEDUCED). -/
def hwFault (tid code : Nat) (s : State) : State :=
  let c := tid / 8
  let pc := (thr s tid).pc
  let pkt := holdsPkt s tid
  let inst := some (tinst s tid)
  let s := cnt (coreCnt c 3) (faultLog tid code 1 pc 0 s)
  let s := thrStrip tid s
  let s := thrRestart tid (entryOf s tid (isSup s tid)) (reexec tid true s)
  let s := match faultSup s tid with
    | some (x, u) => evPush u (faultEv x tid pc code 1 0 pkt) s
    | none => stwFault ⟨tid, pc, tinst s tid, false⟩ s
  let s := ercReport 0x82 code 0 (c * 256 + tid % 8) pc inst s
  let s := coreMod c (fun r => { r with hw := hwWindow s c ++ [s.clk.fab] }) s
  if rf s 0x2808008 31 24 ≤ (hwWindow s c).length then retireCore c s else s

/-- Move the BUFs staged in a context back to the registers they came from (10 R302); none if a register is not VOID. -/
def unstage (t : Thread) (c : CpxCtx) : Option Thread :=
  c.from?.foldl (fun o p => match o with
    | none => none
    | some t => if (mget t.g p.2 TV.void).tag = tVOID then some (setG t p.2 (creg c.c p.1)) else none) (some t)

/-- Release a half-written context under STOP_YIELD, where every staged BUF can go back (R210, 10 R302). -/
def yieldCtx (k tid : Nat) (s : State) (ux : Nat × Nat) : State :=
  let c := cpxOf s k ux.1 ux.2
  if c.staged then
    match unstage (thr s tid) c with
    | some t =>
      let s := setThr tid { t with reacq := t.reacq ++ [(ux.1, c.clkPc)] } s
      cpxGrant k ux.1 (cpxRelease k ux.1 ux.2 true s)
    | none => s
  else s

/-- The supervisor of the thread's core posy is told of a stop or resume, when NOTIFY is 1 (R205). -/
def dbgNotify (code tid : Nat) (s : State) : State :=
  if rb s 0x280800C 1 then
    match recChain s (tid / 8) with
    | x :: _ => evPosy x { code := code, posy := x, core := tid / 8, thread := tid % 8, pc := 0, info := 0, info2 := 0 } s
    | [] => s
  else s

/-- Stop a thread at an instruction boundary (R208 to R210): STOP_YIELD withdraws its pending lock or CLK request and
releases its half-written contexts; an order wait is kept. -/
def stopThread (yield : Bool) (tid : Nat) (s : State) : State :=
  let t := thr s tid
  match t.st with
  | .off => s
  | .stopped => s
  | _ =>
    let s := setThr tid { t with st := .stopped, back := t.st, yield := yield, stopAt := s.clk.fab, step := 0 } s
    let s := if yield then
        let s := match t.wait with
          | .lock _ => thrMod tid (fun t => { t with wait := .none, back := .ready }) s
          | .clk _ => if t.reacq.isEmpty then thrMod tid (fun t => { t with wait := .none, back := .ready }) s
              else thrMod tid (fun t => { t with wait := .none }) s
          | _ => s
        t.cps.foldl (yieldCtx (clusterOf s (tid / 8)) tid) s
      else s
    dbgNotify 0x67 tid s

/-- The time a stopped thread's limits paused is added to their starts (R208). -/
def unpause (now : Nat) (t : Thread) : Thread :=
  let d := now - t.stopAt
  { t with runAt := t.runAt + d, stallAt := t.stallAt + d,
           flt := t.flt.map (fun f => { f with queuedAt := f.queuedAt.map (· + d), since := f.since + d }) }

/-- The lowest of the recorded addresses. -/
def minAddr : List (Nat × Nat) → Nat → Nat
  | [], d => d
  | [(_, a)], _ => a
  | (_, a) :: t, d => min a (minAddr t d)

/-- RESUME of one thread (R210): it acquires again each context released as DEBUG_RELEASED, then continues at the lowest
recorded address. -/
def resumeThread (tid : Nat) (s : State) : State :=
  let t := thr s tid
  if t.st = .stopped then
    let t := unpause s.clk.fab t
    let s := match t.reacq with
      | [] => evKick tid (setThr tid { t with st := t.back, bkSkip := true } s)
      | (u, _) :: _ =>
        let (q, s) := nextSeq s
        let s := setThr tid { t with st := .blocked, wait := .clk u, wseq := q, pc := minAddr t.reacq t.pc, bkSkip := true } s
        cpxGrant (clusterOf s (tid / 8)) u s
    dbgNotify 0x68 tid s
  else s

/-- A thread whose stepped instruction has committed stops again in its mode (R213). -/
def stepSettle (tid : Nat) (s : State) : State :=
  let t := thr s tid
  if t.step = 2 then stopThread t.yield tid s else s

end Sys2Proof.Machine
end

