-- ==== Sys2Proof/Machine/BufOps.lean ====
section
/-! DEFINITION. Reading and writing the buffers a handle names, wherever they lie (12_buffer_pools.md R333 to R337,
10_coprocessors.md R305, 09_petal_packet_ops.md R276). -/

namespace Sys2Proof.Machine

/-- Where a buffer's bytes lie. -/
inductive BufLoc where
  /-- The packet with this first cell. -/
  | pkt (cell : Nat)
  /-- The pool area, from this byte (12 R334). -/
  | area (a : Nat)
  /-- DRAM, from this byte. -/
  | dram (a : Nat)
  deriving DecidableEq, Repr

/-- A buffer and its bound in bytes. -/
structure BufRef where
  loc  : BufLoc
  size : Nat
  deriving DecidableEq, Repr

/-- The buffer a handle names to instance `i`, whose thread holds the packet at `cell`: or a command status, DENIED (5)
for another instance's handle and RANGE (6) for one that names no buffer (10 R296, R298). -/
def bufRef (s : State) (i : Nat) (cell : Option Nat) (h : Word) : Except Nat BufRef :=
  match gateJudge s i cell h with
  | .inst => .error 5
  | .malformed => .error 6
  | .stale => .error 6
  | .packet => match cell with
    | some c => .ok { loc := .pkt c, size := ((pktOf s c).getD Pkt.init).bytes.length }
    | none => .error 6
  | .ok =>
    let k := bits h 24 21
    let sz := poolSize s k
    let base := rf s (poolCfg k + 4) 16 0
    let o := bits h 19 0 * sz
    .ok { loc := if rb s (poolCfg k) 30 then .dram ((instF s i (·.dramBase) + base) * 1048576 + o) else .area (base * 4096 + o),
          size := sz }

/-- `n` bytes of a buffer from offset `o`. -/
def bufRead (s : State) (b : BufRef) (o n : Nat) : List Byte :=
  match b.loc with
  | .pkt c => sliceB ((pktOf s c).getD Pkt.init).bytes o n
  | .area a => memRdN s.bpm.area 0 (a + o) n
  | .dram a => memRdN s.dram 0 (a + o) n

/-- Bytes of a list replaced from position `o`. -/
def listPut (l : List Byte) (o : Nat) (bs : List Byte) : List Byte := l.take o ++ bs ++ l.drop (o + bs.length)

/-- Write bytes of a buffer from offset `o`. -/
def bufWrite (b : BufRef) (o : Nat) (bs : List Byte) (s : State) : State :=
  match b.loc with
  | .pkt c => match pktOf s c with
    | some p => setPkt c { p with bytes := listPut p.bytes o bs } s
    | none => s
  | .area a => { s with bpm := { s.bpm with area := memWrN s.bpm.area 0 (a + o) bs } }
  | .dram a => { s with dram := memWrN s.dram 0 (a + o) bs }

end Sys2Proof.Machine
end

