-- ==== Sys2Proof/Machine/HostOps.lean ====
section
/-! DEFINITION. The host rings and their indices (16_instances.md R426 to R430, R442). -/

namespace Sys2Proof.Machine

/-- HIF_RCFG[f][r]. -/
def rcfg (f r : Nat) : Nat := 0x3F08000 + 0x400 * f + 0x20 * r

/-- HIF_CNT[f][k]. -/
def hifCnt (f k : Nat) : Nat := 0x3F04000 + 0x20 * f + 4 * k

/-- A ring. -/
def ringOf (s : State) (f r : Nat) : Ring := mget s.hif.rings (f * 32 + r) Ring.init

/-- Replace a ring. -/
def setRing (f r : Nat) (x : Ring) (s : State) : State :=
  { s with hif := { s.hif with rings := mput s.hif.rings (f * 32 + r) x Ring.init } }

/-- A ring's entries (R426). -/
def ringSize (s : State) (f r : Nat) : Nat := 2 ^ rf s (rcfg f r) 28 24

/-- A ring that is enabled and not stopped (R426, R430). -/
def ringLive (s : State) (f r : Nat) : Bool := rb s (rcfg f r) 31 && decide ((ringOf s f r).err = 0)

/-- Entries between the indices of a ring: PROD − CONS modulo 2^17 (R426). -/
def ringLen (s : State) (f r : Nat) : Nat :=
  let x := ringOf s f r
  if r < 16 then (x.host + 2 ^ 17 - x.dev) % 2 ^ 17 else (x.dev + 2 ^ 17 - x.host) % 2 ^ 17

/-- A 64-bit address held in two registers. -/
def reg64 (s : State) (a : Nat) : Nat := (rv s a).toNat + (rv s (a + 4)).toNat * 2 ^ 32

/-- The host address of entry `n` of a ring whose entries take `w` bytes. -/
def ringAddr (s : State) (f r n w : Nat) : Nat := reg64 s (rcfg f r + 4) + n % ringSize s f r * w

/-- Raise a ring's vector, no more often than once per ITR_US (R430). -/
def ringIrq (f r : Nat) (s : State) : State :=
  let x := ringOf s f r
  let ok := match x.irqAt with
    | none => true
    | some t => decide (t + rf s (rcfg f r) 19 12 * 1000 ≤ s.clk.fab)
  if ok then
    raiseMsix f (rf s (rcfg f r) 8 0) (cnt (hifCnt f 6) (setRing f r { x with irqAt := some s.clk.fab, irqDue := false } s))
  else setRing f r { x with irqDue := true } s

/-- The device's index advances by one and is written back to WB (R426). -/
def ringAdvance (f r : Nat) (s : State) : State :=
  let x := ringOf s f r
  let n := (x.dev + 1) % 2 ^ 17
  let s := setRing f r { x with dev := n } s
  emit (.hostWrite f (reg64 s (rcfg f r + 12)) (leBytes 4 n)) s

/-- A ring stops with an error (R430). -/
def ringStop (f r err : Nat) (s : State) : State := setRing f r { ringOf s f r with err := err } s

/-- The function of an instance, where it has a host port (R429). -/
def instFn (s : State) (i : Nat) : Option Nat := (hostPort s i).map (· - 64)

/-- Place a message in host message queue `q` of an instance (10 R313, R429): the command status. -/
def hostMsg (i q : Nat) (intr : Bool) (ws : List Word) (s : State) : Nat × State :=
  match instFn s i with
  | none => (0x10, s)
  | some f =>
    let r := 24 + q
    if !ringLive s f r || decide (ringSize s f r ≤ ringLen s f r) then (0x0F, s)
    else
      let n := (ringOf s f r).dev
      let s := emit (.hostWrite f (ringAddr s f r n 32) (wordBytes ws)) s
      let s := ringAdvance f r (cnt (hifCnt f 3) s)
      (0, if intr then ringIrq f r s else s)

end Sys2Proof.Machine
end

