-- ==== Sys2Proof/Machine/MeterOps.lean ====
section
/-! DEFINITION. Policers, counter pairs in DRAM and delay lists: what the classifier, the MTR and the TIM units share
(04_parse_classify.md R147 to R151, 05_dispatch_order.md R181 to R183, 10_coprocessors.md R309, R312). -/

namespace Sys2Proof.Machine

/-- CLS_POLCFG[p][x] (04 R157); CIR, PIR and BURST follow it. -/
def polCfg (p x : Nat) : Nat := 0x1840000 + 0x100000 * p + 0x10 * x

/-- CBS and PBS of a policer in units of 2^-16 byte (04 R148). -/
def polBursts (s : State) (p x : Nat) : Nat × Nat :=
  (rf s (polCfg p x + 12) 15 0 * 64 * 65536, rf s (polCfg p x + 12) 31 16 * 64 * 65536)

/-- A policer's run-time state. -/
def polOf (s : State) (p x : Nat) : Pol := mget s.rules.pols (p * 32768 + x) ⟨0, 0, 0⟩

/-- Replace a policer's run-time state. -/
def setPol (p x : Nat) (v : Pol) (s : State) : State :=
  { s with rules := { s.rules with pols := mput s.rules.pols (p * 32768 + x) v ⟨0, 0, 0⟩ } }

/-- Tokens added by a rate in kb/s over `dt` nanoseconds, in units of 2^-16 byte, truncated (04 R148). -/
def polFill (rate dt : Nat) : Nat := rate * dt * 65536 / 8000000

/-- The procedure of 04 R148 on a VALID policer: the outgoing colour. -/
def polRun (p x b cin : Nat) (s : State) : Nat × State :=
  let v := polOf s p x
  let dt := s.clk.fab - v.last
  let bu := polBursts s p x
  let tc := min bu.1 (v.tc + polFill (rv s (polCfg p x + 4)).toNat dt)
  let t2 := min bu.2 (v.t2 + polFill (rv s (polCfg p x + 8)).toNat dt)
  let cin := if rb s (polCfg p x) 29 then cin else 0
  let n := b * 65536
  let r := if rb s (polCfg p x) 30 then
      if cin = 0 && decide (n ≤ tc) then (0, tc - n, t2)
      else if cin != 2 && decide (n ≤ t2) then (1, tc, t2 - n) else (2, tc, t2)
    else
      if cin = 2 || decide (t2 < n) then (2, tc, t2)
      else if cin = 1 || decide (tc < n) then (1, tc, t2 - n) else (0, tc - n, t2 - n)
  (r.1, setPol p x { last := s.clk.fab, tc := r.2.1, t2 := r.2.2 } s)

/-- Police a length with an incoming colour. The spec states no outgoing colour of a policer that is not VALID: it is a
free choice, and its buckets are not touched. -/
def police (p x b cin : Nat) (s : State) : Nat × State :=
  if rb s (polCfg p x) 31 then polRun p x b cin s else drawPick 3 s

/-- The byte address in DRAM of counter `n` of an instance, where its pair lies within the region (04 R151). -/
def countAt (s : State) (i base n : Nat) : Option Nat :=
  let o := base * 1048576 + 16 * n
  if o + 16 ≤ instF s i (·.dramSize) * 1048576 then some (instF s i (·.dramBase) * 1048576 + o) else none

/-- The same with the COUNT_BASE in force. -/
def countAddr (s : State) (i n : Nat) : Option Nat := countAt s i (rf s (0x180A180 + 4 * i) 16 0) n

/-- A 64-bit word of DRAM. -/
def dram64 (s : State) (a : Nat) : Nat := leVal (memRdN s.dram 0 a 8)

/-- Write a 64-bit word of DRAM. -/
def setDram64 (a v : Nat) (s : State) : State := { s with dram := memWrN s.dram 0 a (leBytes 8 v) }

/-- Add 1 and `b` to a counter pair; a counter stays at all ones (00 R19). -/
def countAdd (a b : Nat) (s : State) : State :=
  setDram64 (a + 8) (satAdd 64 (dram64 s (a + 8)) b) (setDram64 a (satAdd 64 (dram64 s a) 1) s)

/-- The tick of a delay list in nanoseconds (05 R181). -/
def dlTick (s : State) (l : Nat) : Nat := 8 * 2 ^ rf s (0x2008800 + 0x10 * (l / 4) + 4 * (l % 4)) 3 0

/-- The armed entries of an instance. -/
def dlHeld (s : State) (i : Nat) : Nat := (s.dsp.dl.filter (fun p => p.2.inst == i)).length

/-- Arm an entry (05 R182): its handle, or none where the instance's TIMERS are all armed. -/
def dlArm (i : Nat) (e : DlEntry) (s : State) : Option Word × State :=
  if instF s i (·.timers) ≤ dlHeld s i then (none, s)
  else
    let (k, s) := drawPick 16384 s
    match findFrom (fun c => !mhas s.dsp.dl (c % 16384)) k 16384 with
    | none => (none, s)
    | some c =>
      let n := c % 16384
      let g := (mget s.dsp.dlGen n 0 + 1) % 65536
      let (q, s) := nextSeq s
      let s := { s with dsp := { s.dsp with dl := mins s.dsp.dl n { e with inst := i, gen := g, seq := q, after := s.clk.fab },
                                            dlGen := mput s.dsp.dlGen n g 0 } }
      (some (w32 (g * 65536 + n)), s)

/-- Cancel the entry a handle names (05 R183): a command status. GEN advances at a cancel, so that the handle is STALE
from then on. -/
def dlCancel (i : Nat) (h : Word) (s : State) : Nat × State :=
  let n := bits h 13 0
  let g := bits h 31 16
  if bits h 15 14 != 0 || mget s.dsp.dlGen n 0 != g then (0x0D, s)
  else match mfind s.dsp.dl n with
    | none => (0x0C, s)
    | some e =>
      if e.inst != i then (5, s)
      else (0, { s with dsp := { s.dsp with dl := mdel s.dsp.dl n, dlGen := mput s.dsp.dlGen n ((g + 1) % 65536) 0 } })

/-- The 48-bit time whose low 32 bits are given, nearest to now (10 R312). -/
def dueTime (s : State) (c : Word) : Nat :=
  ((s.clk.fab : Int) + sgn 32 ((c - w32 s.clk.fab).toNat)).toNat

/-- A boundary of the entry's list has passed at which it is to fire (05 R183). -/
def dlRipe (s : State) (e : DlEntry) : Bool :=
  let t := dlTick s e.list
  decide (max e.due (e.after + 1) ≤ s.clk.fab / t * t)

/-- The entry of a list that fires next: ascending due time, then arm order (05 R183). -/
def dlNext (s : State) (l : Nat) : Option (Nat × DlEntry) :=
  (s.dsp.dl.filter (fun p => p.2.list == l && dlRipe s p.2)).foldl (fun o p => match o with
    | none => some p
    | some b => if p.2.due < b.2.due || (p.2.due == b.2.due && decide (p.2.seq < b.2.seq)) then some p else some b) none

end Sys2Proof.Machine
end

