-- ==== Sys2Proof/Machine/Edit.lean ====
section
/-! DEFINITION. The egress editor: applying an edit list to a stored frame (04_parse_classify.md R151, R154,
09_petal_packet_ops.md R277). -/

namespace Sys2Proof.Machine

/-- The field [bit offset, width] of a frame as a number, network order (R151). -/
def fieldGet (l : List Byte) (p w : Nat) : Nat :=
  let n := (p % 8 + w + 7) / 8
  beVal (sliceB l (p / 8) n) / 2 ^ (8 * n - p % 8 - w) % 2 ^ w

/-- A field of a frame replaced. -/
def fieldSet (l : List Byte) (p w v : Nat) : List Byte :=
  let n := (p % 8 + w + 7) / 8
  let k := 8 * n - p % 8 - w
  let old := beVal (sliceB l (p / 8) n)
  let hi := old / 2 ^ (k + w) * 2 ^ (k + w)
  listPut l (p / 8) (beBytes n (hi + v % 2 ^ w * 2 ^ k + old % 2 ^ k))

/-- The sum of bytes as 16-bit words, an odd byte counting as the high half of a word (RFC 1071). -/
def halfSum : List Byte → Nat → Nat
  | [], a => a
  | [b], a => a + b.toNat * 256
  | b :: c :: t, a => halfSum t (a + b.toNat * 256 + c.toNat)

/-- A sum folded to 16 bits in ones'-complement arithmetic. -/
def ocFold (n : Nat) : Nat := if n = 0 then 0 else (n - 1) % 65535 + 1

/-- The ones'-complement sum of bytes. -/
def ocSum (l : List Byte) : Nat := ocFold (halfSum l 0)

/-- Metadata a COPY_MD operation copies (R151). -/
def copyMd (p : Pkt) (k : Nat) : Nat :=
  match k with
  | 0 => p.inPort
  | 1 => p.rxNs
  | 2 => p.rxSec % 2 ^ 32
  | 3 => p.colour
  | 4 => (p.lkp[0]?).getD 0 % 2 ^ 32
  | 5 => (p.lkp[1]?).getD 0 % 2 ^ 32
  | 6 => (p.lkp[2]?).getD 0 % 2 ^ 32
  | 7 => (p.lkp[3]?).getD 0 % 2 ^ 32
  | _ => p.inst

/-- The template at an offset of an instance's partition (R151, R159). One never written has no bytes. -/
def tmplOf (s : State) (i o : Nat) : Tmpl :=
  mget s.rules.tmpls (rf s (0x3C08000 + 4 * i) 9 0 + o) { bytes := [], ipOff := 255, udpOff := 255 }

/-- A chunk to be inserted before a byte position of the frame; `tmpl`: it is a template with its IP_OFF and UDP_OFF. -/
structure Push where
  at_   : Nat
  bytes : List Byte
  tmpl  : Option (Nat × Nat)
  deriving DecidableEq, Repr

/-- The editor's work on one frame. -/
structure EdSt where
  buf    : List Byte
  /-- Indices of popped headers. -/
  popped : List Nat
  /-- Insertions in list order. -/
  pushes : List Push
  /-- Operations without effect (R154). -/
  nop    : Nat
  /-- A DEC_TTL found 0 or 1 (R151). -/
  ttl    : Bool
  deriving DecidableEq, Repr

/-- Change a field of header `h`, where it lies within the header's LENGTH. -/
def edField (h : Hdr) (b : Nat) (f : Nat → Nat → Nat) (e : EdSt) : EdSt :=
  let o := nbits b 15 5
  let w := nbits b 4 0 + 1
  if h.len * 8 < o + w then { e with nop := e.nop + 1 }
  else { e with buf := fieldSet e.buf (h.off * 8 + o) w (f w (fieldGet e.buf (h.off * 8 + o) w)) }

/-- Apply one edit operation (R151, R154). An operation on a header that the parse result does not hold has no effect,
as one on a header of LENGTH 0 (DEDUCED). -/
def edStep (s : State) (p : Pkt) (g : Graph) (e : EdSt) (o : EditOp) : EdSt :=
  let nop := { e with nop := e.nop + 1 }
  match p.parse.hdrs[o.a]? with
  | none => nop
  | some h =>
    let push (bs : List Byte) (t : Option (Nat × Nat)) : EdSt :=
      { e with pushes := e.pushes ++ [{ at_ := h.off, bytes := bs, tmpl := t }] }
    if o.op = 0x10 then push (beBytes 2 (if o.b % 2 = 1 then 0x88A8 else 0x8100) ++ beBytes 2 o.imm) none
    else if o.op = 0x11 then push (beBytes 4 o.imm) none
    else if o.op = 0x12 then
      let t := tmplOf s p.inst o.b
      push t.bytes (some (t.ipOff, t.udpOff))
    else if e.popped.contains o.a then nop
    else if o.op = 0x18 then { e with popped := o.a :: e.popped }
    else if o.op = 0x05 then
      let k := kindOf g h.ty
      if k = 4 || k = 5 then
        let a := h.off + (if k = 4 then 8 else 7)
        let v := (((e.buf)[a]?).getD 0).toNat
        if v ≤ 1 then { e with ttl := true } else { e with buf := listPut e.buf a [by8 (v - 1)] }
      else nop
    else edField h o.b (fun w v => (if o.op = 1 then o.imm else if o.op = 2 then v + o.imm
      else if o.op = 3 then v ^^^ o.imm else copyMd p o.imm) % 2 ^ w) e

/-- Whether a byte position belongs to a popped header. -/
def edCut (p : Pkt) (e : EdSt) (a : Nat) : Bool :=
  e.popped.any (fun k => match p.parse.hdrs[k]? with
    | some h => decide (h.off ≤ a) && decide (a < h.off + h.len)
    | none => false)

/-- Where a byte position of the stored frame lies in the edited one; `incl`: behind what is inserted before it. -/
def edPos (p : Pkt) (e : EdSt) (incl : Bool) (a : Nat) : Nat :=
  ((List.range a).filter (fun x => !edCut p e x)).length +
  ((e.pushes.filter (fun q => decide (q.at_ < a) || (incl && q.at_ == a))).map (·.bytes.length)).sum

/-- The edited frame: insertions in their order before their header, popped headers left out (R154). -/
def edLay (p : Pkt) (e : EdSt) : Nat → Nat → List Byte → List Byte
  | 0, _, _ => []
  | n + 1, a, l =>
    ((e.pushes.filter (fun q => q.at_ == a)).map (·.bytes)).flatten ++
    (match l with
      | [] => []
      | b :: t => (if edCut p e a then [] else [b]) ++ edLay p e n (a + 1) t)

/-- Where each inserted template begins in the edited frame, with its IP_OFF and UDP_OFF. -/
def edTmpls (p : Pkt) (e : EdSt) : List Push → List Push → List (Nat × Nat × Nat)
  | _, [] => []
  | pre, q :: t =>
    let at_ := edPos p e false q.at_ + ((pre.filter (fun x => x.at_ == q.at_)).map (·.bytes.length)).sum
    (match q.tmpl with
      | some (i, u) => [(at_, i, u)]
      | none => []) ++ edTmpls p e (pre ++ [q]) t

/-- The IPv4 header checksum at a position written anew. -/
def ip4Fix (l : List Byte) (o n : Nat) : List Byte :=
  let z := listPut l (o + 10) [0, 0]
  listPut z (o + 10) (beBytes 2 (65535 - ocSum (sliceB z o n)))

/-- The length fields and the IPv4 checksum of a template (R154); `d`: the end of the data, which bytes beyond DATA_END do
not belong to (R132). -/
def tmplLens (l : List Byte) (t : Nat × Nat × Nat) (d : Nat) : List Byte :=
  let ip := t.1 + t.2.1
  let u := t.1 + t.2.2
  let l := if t.2.1 = 255 then l
    else if (((l[ip]?).getD 0).toNat) / 16 = 4 then
      ip4Fix (listPut l (ip + 2) (beBytes 2 (d - ip))) ip ((((l[ip]?).getD 0).toNat) % 16 * 4)
    else listPut l (ip + 4) (beBytes 2 (d - ip - 40))
  if t.2.2 = 255 then l else listPut (listPut l (u + 4) (beBytes 2 (d - u))) (u + 6) [0, 0]

/-- A UDP checksum field: a computed 0 is sent as all ones (RFC 768, PRESUMED). -/
def udpSum (c : Nat) : Nat := if c = 0 then 65535 else c

/-- The UDP checksum of a template over IPv6, computed (R154). -/
def tmplUdp6 (l : List Byte) (t : Nat × Nat × Nat) (d : Nat) : List Byte :=
  let ip := t.1 + t.2.1
  let u := t.1 + t.2.2
  if t.2.1 = 255 || t.2.2 = 255 || (((l[ip]?).getD 0).toNat) / 16 != 6 then l
  else
    let c := ocFold (ocSum (sliceB l (ip + 8) 32) + (d - u) + 17 + ocSum (sliceB l u (d - u)))
    listPut l (u + 6) (beBytes 2 (udpSum (65535 - c)))

/-- The bytes a UDP or TCP checksum covers: the addresses of its IP header and everything from its own header to the end
of the data, its checksum field left out. -/
def l4Cover (l : List Byte) (k ip u ck d : Nat) : Nat :=
  ocFold (ocSum (if k = 4 then sliceB l (ip + 12) 8 else sliceB l (ip + 8) 32) +
    ocSum (sliceB (listPut l (u + ck) [0, 0]) u (d - u)))

/-- A UDP or TCP checksum updated incrementally (R154, RFC 1624): HC' = ~(~HC + ~m + m'). -/
def l4Fix (old new : List Byte) (udp : Bool) (k ip0 u0 d0 ip1 u1 d1 : Nat) : List Byte :=
  let ck := if udp then 6 else 16
  let c := be16 new (u1 + ck)
  if udp && c = 0 then new
  else
    let a := l4Cover old k ip0 u0 ck d0
    let b := l4Cover new k ip1 u1 ck d1
    if a = b then new
    else
      let h := 65535 - ocFold ((65535 - c) + (65535 - a) + b)
      listPut new (u1 + ck) (beBytes 2 (if udp then udpSum h else h))

/-- The IP header before header `j` of a parse result: its index. -/
def ipBefore (g : Graph) (r : ParseRes) (j : Nat) : Option Nat := ((ipHeaders g r).filter (fun h => decide (h < j))).getLast?

/-- The edited frame with what the editor counts. -/
structure EdRes where
  bytes : List Byte
  nop   : Nat
  ttl   : Bool
  /-- Where each header of the parse result begins in it. -/
  pos   : List Nat
  deriving DecidableEq, Repr

/-- Checksums from the innermost header outward: those of the packet's own UDP and TCP headers that remain, and those of
templates over IPv6 (R154). -/
def edSums (g : Graph) (p : Pkt) (e : EdSt) (d0 d1 : Nat) (new : List Byte) : List Byte :=
  let own : List (Nat × Bool × Nat × Nat × Nat) := (List.range p.parse.hdrs.length).filterMap (fun j =>
    let h := hdrAt p.parse j
    let k := kindOf g h.ty
    match ipBefore g p.parse j with
    | some i =>
      if (k = 8 || k = 9) && !e.popped.contains j && !e.popped.contains i then some (edPos p e true h.off, false, j, i, 0)
      else none
    | none => none)
  let ts : List (Nat × Bool × Nat × Nat × Nat) := (edTmpls p e [] e.pushes).map (fun t => (t.1 + t.2.2, true, t))
  let all := (own ++ ts).foldl (fun (m : List (Nat × Bool × Nat × Nat × Nat)) x => mins m x.1 x.2) []
  all.reverse.foldl (fun (l : List Byte) (x : Nat × Bool × Nat × Nat × Nat) =>
    if x.2.1 then tmplUdp6 l x.2.2 d1
    else
      let h := hdrAt p.parse x.2.2.1
      let y := hdrAt p.parse x.2.2.2.1
      l4Fix p.bytes l (kindOf g h.ty == 8) (kindOf g y.ty) y.off h.off d0 (edPos p e true y.off) (edPos p e true h.off) d1) new

/-- The egress editor on a packet's stored frame, before padding (R154, 09 R277). -/
def edRun (s : State) (p : Pkt) : EdRes :=
  let g := graphOf s p.inst p.slot
  let e := p.edits.foldl (edStep s p g) { buf := p.bytes, popped := [], pushes := [], nop := 0, ttl := false }
  -- IPv4 headers that changed take a new checksum
  let e := (ipHeaders g p.parse).foldl (fun (e : EdSt) j =>
    let h := hdrAt p.parse j
    if kindOf g h.ty = 4 && !e.popped.contains j && sliceB e.buf h.off h.len != sliceB p.bytes h.off h.len then
      { e with buf := ip4Fix e.buf h.off h.len } else e) e
  let new := edLay p e (e.buf.length + 1) 0 e.buf
  let d0 := if p.parse.dataEnd = 0 then p.bytes.length else p.parse.dataEnd
  let d1 := new.length - (p.bytes.length - d0)
  let new := (edTmpls p e [] e.pushes).foldl (fun l t => tmplLens l t d1) new
  { bytes := edSums g p e d0 d1 new, nop := e.nop, ttl := e.ttl,
    pos := p.parse.hdrs.map (fun h => edPos p e true h.off) }

/-- The length of a packet's frame after its edits, including the FCS (14 R380). -/
def edLen (s : State) (p : Pkt) : Nat := max 60 (edRun s p).bytes.length + 4

/-- MAX_FRAME of a logical port (R154). -/
def maxFrame (s : State) (n : Nat) : Nat :=
  if n < 64 then match lportRec s n with
    | some r => rf s (0x808000 + 0x10000 * r.mac) 13 0
    | none => 9216
  else 9216

/-- Bytes the spec gives no value: free ones. -/
def freeBytes : Nat → State → List Byte × State
  | 0, s => ([], s)
  | n + 1, s =>
    let (w, s) := drawWord s
    let r := freeBytes n s
    (by8 w.toNat :: r.1, r.2)

/-- EGR_CNT[i][k] (R159). -/
def egrCnt (i k : Nat) : Nat := 0x3C02000 + 0x10 * i + 4 * k

/-- An edit operation is legal for an instance: its operands are in range and what the operation does not name is 0 (R151,
R152, 09 R273). -/
def editOk (s : State) (i : Nat) (o : EditOp) : Bool :=
  decide (o.a ≤ 23) &&
  (match o.op with
    | 0x01 | 0x02 | 0x03 => decide (o.imm < 2 ^ (nbits o.b 4 0 + 1))
    | 0x04 => decide (o.imm ≤ 8)
    | 0x05 => o.b == 0 && o.imm == 0
    | 0x10 => decide (o.b ≤ 1) && decide (o.imm < 65536)
    | 0x11 => o.b == 0
    | 0x12 => decide (o.b < rf s (0x3C08000 + 4 * i) 26 16) && o.imm == 0
    | 0x18 => o.b == 0 && o.imm == 0
    | _ => false)

/-- The pushed bytes of an edit list (R153). -/
def pushBytes (s : State) (i : Nat) (l : List EditOp) : Nat :=
  (l.map (fun o => if o.op = 0x10 || o.op = 0x11 then 4 else if o.op = 0x12 then (tmplOf s i o.b).bytes.length else 0)).sum

/-- An edit list within the limits of R153: 32 operations, 8 labels, 128 pushed bytes. -/
def editFits (s : State) (i : Nat) (l : List EditOp) : Bool :=
  decide (l.length ≤ 32) && decide ((l.filter (fun o => o.op == 0x11)).length ≤ 8) && decide (pushBytes s i l ≤ 128)

end Sys2Proof.Machine
end

