-- ==== Sys2Proof/Machine/TmOps.lean ====
section
/-! DEFINITION. The traffic manager's shared operations: the tree, shapers, queues, gates, admission and mirror copies
(14_traffic_manager.md R373 to R392). -/

namespace Sys2Proof.Machine

/-- The rate of each PHY type in Gb/s (03 R93). -/
def phyRate (k : Nat) : Nat := ([0, 10, 25, 50, 100, 100, 100, 200, 200, 400, 400][k]?).getD 0

/-- PRT_MACCFG[m] (03 R121). -/
def macCfg (m : Nat) : Nat := 0x808000 + 0x10000 * m

/-- The line rate of a network port in Gb/s: that of its attached MAC, 0 where none is (03 R93, 14 R374). -/
def portRate (s : State) (n : Nat) : Nat :=
  match lportRec s n with
  | some r => if rb s (macCfg r.mac) 31 && running s 9 r.mac then phyRate (rf s (macCfg r.mac) 27 24) else 0
  | none => 0

/-- The record of queue `q`. -/
def qRec (s : State) (q : Nat) : Option QhieRec := s.img.qhie.find? (fun r => r.level == 0 && r.node == q)

/-- The record of a node. -/
def nodeRec (s : State) (l k : Nat) : Option QhieRec := s.img.qhie.find? (fun r => r.level == l && r.node == k)

/-- The path of a queue: its subscriber, its service node and its port (R373). -/
def qPath (s : State) (q : Nat) : Option (Nat × Nat × Nat) :=
  match qRec s q with
  | none => none
  | some r => match nodeRec s 1 r.parent with
    | none => none
    | some u => match nodeRec s 2 u.parent with
      | none => none
      | some v => some (r.parent, u.parent, v.parent)

/-- A queue's port. -/
def qPort (s : State) (q : Nat) : Option Nat := (qPath s q).map (·.2.2)

/-- The key of a node: 65,536 times its level plus its index. -/
def nodeKey (l k : Nat) : Nat := 65536 * l + k

/-- The children of a node, in ascending index. -/
def kids (s : State) (key : Nat) : List Nat :=
  mkeys ((s.img.qhie.filter (fun r => r.level + 1 == key / 65536 && r.parent == key % 65536)).foldl
    (fun (m : List (Nat × Unit)) r => mins m (nodeKey r.level r.node) ()) [])

/-- The queues under a node, at most `n` levels down. -/
def leaves (s : State) : Nat → Nat → List Nat
  | 0, k => [k]
  | n + 1, k => if k < 65536 then [k] else ((kids s k).map (leaves s n)).flatten

/-- The queues under port `n`. -/
def portQs (s : State) (n : Nat) : List Nat := leaves s 3 (nodeKey 3 n)

/-- A queue. -/
def tmQ (s : State) (q : Nat) : TmQ := mget s.tm.qs q TmQ.init

/-- Replace a queue. -/
def setTmQ (q : Nat) (x : TmQ) (s : State) : State := { s with tm := { s.tm with qs := mput s.tm.qs q x TmQ.init } }

/-- Cells a packet holds. -/
def pktCells (s : State) (c : Nat) : Nat := ((pktOf s c).getD Pkt.init).cells

/-- OCC of a queue (R382). -/
def occQ (s : State) (q : Nat) : Nat := ((tmQ s q).pkts.map (fun p => pktCells s p.cell)).sum

/-- The packets in an instance's queues. -/
def instPkts (s : State) (i : Nat) : List TmPkt :=
  (s.tm.qs.map (fun e => e.2.pkts.filter (fun p => ((pktOf s p.cell).getD Pkt.init).inst == i))).flatten

/-- INST_OCC of an instance (R382). -/
def occI (s : State) (i : Nat) : Nat := ((instPkts s i).map (fun p => pktCells s p.cell)).sum

/-- CLASS of a queue. -/
def qClass (s : State) (q : Nat) : Nat := match qRec s q with
  | some r => r.cls
  | none => 0

/-- A node's subtree holds a packet of class `c`. -/
def holdsClass (s : State) (key c : Nat) : Bool :=
  (leaves s 3 key).any (fun q => qClass s q == c && !(tmQ s q).pkts.isEmpty)

/-- A deficit is 0 while its subtree holds no packet of its class (R376). -/
def dfcSweep (s : State) : State :=
  { s with tm := { s.tm with dfc := s.tm.dfc.filter (fun e => holdsClass s (e.1 / 8) (e.1 % 8)) } }

/-- TM_PORTCNT[n][k] (R397). -/
def tmPortCnt (n k : Nat) : Nat := 0x3A02000 + 0x20 * n + 4 * k

/-- TM_INSTCNT[i][k] (R397). -/
def tmInstCnt (i k : Nat) : Nat := 0x3A01C00 + 0x20 * i + 4 * k

/-- TM_QCFG[q]; TM_QQUOTA and TM_QSPILL follow it (R397). -/
def tmQCfg (q : Nat) : Nat := 0x3B00000 + 0x10 * q

/-- The key of a shaper. -/
def credKey (kind k : Nat) : Nat := 65536 * kind + k

/-- RATE of a shaper (R378). Profile 0 means no shaping. -/
def credRate (s : State) (key : Nat) : Nat :=
  let k := key % 65536
  let p := rf s (tmQCfg k) 11 0
  match key / 65536 with
  | 0 => if p = 0 then 0 else rf s (0x3A90000 + 0x10 * p) 25 0
  | 1 => if p = 0 then 0 else rf s (0x3A90004 + 0x10 * p) 25 0
  | 2 => rf s (0x3A40004 + 0x10 * k) 25 0
  | 3 => rf s (0x3A40008 + 0x10 * k) 25 0
  | 4 => rf s (0x3A80004 + 0x10 * k) 25 0
  | 5 => rf s (0x3A80008 + 0x10 * k) 25 0
  | 6 => rf s (0x3A88004 + 0x10 * k) 25 0
  | _ => rf s (0x3A88804 + 0x20 * k) 25 0

/-- BURST of a shaper, in units of 64 bytes (R378). -/
def credBurst (s : State) (key : Nat) : Nat :=
  let k := key % 65536
  let p := rf s (tmQCfg k) 11 0
  match key / 65536 with
  | 0 => rf s (0x3A90008 + 0x10 * p) 15 0
  | 1 => rf s (0x3A90008 + 0x10 * p) 31 16
  | 2 => rf s (0x3A4000C + 0x10 * k) 15 0
  | 3 => rf s (0x3A4000C + 0x10 * k) 31 16
  | 4 => rf s (0x3A8000C + 0x10 * k) 15 0
  | 5 => rf s (0x3A8000C + 0x10 * k) 31 16
  | 6 => rf s (0x3A88008 + 0x10 * k) 15 0
  | _ => rf s (0x3A88808 + 0x20 * k) 15 0

/-- A shaper. -/
def credOf (s : State) (key : Nat) : Cred := mget s.tm.cred key Cred.init

/-- Replace a shaper. -/
def setCred (key : Nat) (c : Cred) (s : State) : State :=
  { s with tm := { s.tm with cred := mput s.tm.cred key c Cred.init } }

/-- Refresh a shaper (R379). -/
def credRefresh (key : Nat) (s : State) : State :=
  let c := credOf s key
  let add : Int := (credRate s key * (s.clk.fab - c.last) * 65536 / 1000000 : Nat)
  setCred key { c with cred := min (credBurst s key * 64 * 65536 : Nat) (c.cred + add), last := s.clk.fab } s

/-- A shaper whose CRED is below 0 is entered on the calendar (R379). -/
def credEnter (key : Nat) (s : State) : State :=
  let c := credOf s key
  let r := credRate s key
  if c.cred < 0 && r != 0 then
    setCred key { c with due := some (s.clk.fab + cdiv ((-c.cred).toNat * 1000000) (r * 65536)) } s
  else setCred key { c with due := none } s

/-- A dequeued packet takes `l` bytes of a shaper that has a rate (R380). -/
def credCharge (l : Nat) (key : Nat) (s : State) : State :=
  if credRate s key = 0 then s
  else
    let c := credOf s key
    credEnter key (setCred key { c with cred := c.cred - (l * 65536 : Nat) } s)

/-- Committed-eligible (R379). -/
def commElig (s : State) (key : Nat) : Bool :=
  credRate s key != 0 && decide (0 ≤ (credOf s key).cred) && (credOf s key).due.isNone

/-- Peak-eligible (R379). -/
def peakElig (s : State) (key : Nat) : Bool := decide (credRate s key = 0) || commElig s key

/-- The shaper of a node: `peak` or committed. -/
def nodeCred (peak : Bool) (node : Nat) : Nat :=
  if node / 65536 = 3 then credKey 6 (node % 65536) else credKey (2 * (node / 65536) + b2n peak) (node % 65536)

/-- The gates of a port. -/
def gateOf (s : State) (n : Nat) : TGate := mget s.tm.gate n TGate.init

/-- Replace the gates of a port. -/
def setGate (n : Nat) (g : TGate) (s : State) : State := { s with tm := { s.tm with gate := mput s.tm.gate n g TGate.init } }

/-- PTP time in nanoseconds. -/
def ptpNs (s : State) : Nat := s.clk.sec * 1000000000 + s.clk.ns

/-- An entry of a gate list; one never written holds all gates closed for the least interval. -/
def gclAt (s : State) (n b e : Nat) : Nat × Nat := mget s.tm.gcl ((n * 2 + b) * 1024 + e) (0, 8)

/-- The entries of a list as they fill its cycle: cut at its end, the last one held to it (R389). -/
def gclFill (s : State) (n b : Nat) : Nat → Nat → Nat → List (Nat × Nat)
  | 0, _, _ => []
  | k + 1, e, rest =>
    let x := gclAt s n b e
    if k = 0 || rest ≤ x.2 then [(x.1, rest)] else x :: gclFill s n b k (e + 1) (rest - x.2)

/-- The mask in force at a position of a cycle, and how long it lasts. -/
def gclPos : List (Nat × Nat) → Nat → Nat × Nat
  | [], _ => (255, 1)
  | (m, d) :: t, p => if p < d then (m, d - p) else gclPos t (p - d)

/-- The gate states of a port at a PTP time, and the nanoseconds until they may change (R389, R391). -/
def gateAt (s : State) (n t : Nat) : Nat × Nat :=
  let g := gateOf s n
  let pendOn := match g.pend with
    | some p => decide (p ≤ t)
    | none => false
  let lim := match g.pend with
    | some p => if t < p then some (p - t) else none
    | none => none
  let r :=
    if pendOn then
      let cyc := rf s (0x3A8A00C + 0x20 * n) 29 0
      let len := rf s (0x3A8A010 + 0x20 * n) 10 0
      gclPos (gclFill s n (1 - g.bank) len 0 cyc) ((t - g.pend.getD 0) % cyc)
    else if g.on then
      gclPos (gclFill s n g.bank g.len 0 g.cyc) (((t : Int) - (g.t0 : Int)).emod (g.cyc : Int)).toNat
    else (255, 1000000000)
  (r.1, match lim with
    | some l => min l r.2
    | none => r.2)

/-- Gate `c` stays open from a time for as long as `need` bits take at `rate` Gb/s (R392). -/
def gateStays (s : State) (n c rate : Nat) : Nat → Nat → Nat → Bool
  | 0, _, _ => false
  | k + 1, t, need =>
    let x := gateAt s n t
    if nbits x.1 c c != 1 then false
    else if need ≤ x.2 * rate then true
    else gateStays s n c rate k (t + x.2) (need - x.2 * rate)

/-- The longest run of open time of gate `c` in a list of entries taken twice around (R392). -/
def openSpan (c : Nat) : List (Nat × Nat) → Nat → Nat → Nat
  | [], _, best => best
  | (m, d) :: t, run, best =>
    if nbits m c c = 1 then openSpan c t (run + d) (max best (run + d)) else openSpan c t 0 best

/-- A frame of `len` bytes with FCS is too long for gate `c` of the running list, which opens at times (R392). -/
def gateOversize (s : State) (n c len : Nat) : Bool :=
  let g := gateOf s n
  let r := portRate s n
  if !g.on || r = 0 then false
  else
    let l := gclFill s n g.bank g.len 0 g.cyc
    let span := openSpan c (l ++ l) 0 0
    if span = 0 || l.all (fun e => nbits e.1 c c == 1) then false else decide (span * r < (len + 20) * 8)

/-- Take the head packet out of a queue. -/
def tmPop (q : Nat) (s : State) : State :=
  let x := tmQ s q
  let s := setTmQ q { x with pkts := x.pkts.drop 1 } s
  let i := match qRec s q with
    | some r => r.inst
    | none => 0
  let clr (k quota occ : Nat) (s : State) : State :=
    if occ < quota then { s with tm := { s.tm with overShare := mput s.tm.overShare k false false } } else s
  dfcSweep (clr (65536 + i) (rf s (0x3A88800 + 0x20 * i) 19 0) (occI s i) (clr q (rf s (tmQCfg q + 4) 19 0) (occQ s q) s))

/-- Judge the packets that reach the head of a queue of a port: aged, or too long for their gate (R384, R392). -/
def headJudge (q n : Nat) : Nat → State → State
  | 0, s => s
  | k + 1, s => match (tmQ s q).pkts with
    | [] => s
    | x :: _ =>
      let p := (pktOf s x.cell).getD Pkt.init
      let age := rf s (0x3A8800C + 0x10 * n) 15 0
      if age != 0 && decide (p.since + age * 1000 < s.clk.fab) then headJudge q n k (pktDrop 0x54 x.cell (tmPop q s))
      else if n < 64 && gateOversize s n (qClass s q) (edLen s p) then headJudge q n k (pktDrop 0x56 x.cell (tmPop q s))
      else s

/-- Judge a new head of a queue. -/
def headNew (q : Nat) (s : State) : State :=
  match qPort s q with
  | some n => headJudge q n ((tmQ s q).pkts.length) s
  | none => s

/-- WRED of a queue: the new AVG, and whether the arrival is dropped (R382). Thresholds are in units of 16 cells. -/
def wred (s : State) (q col : Nat) (w : Word) : TmQ × Bool :=
  let x := tmQ s q
  let f := 0x3A89000 + 0x40 * rf s (tmQCfg q) 29 24
  let e := rf s f 3 0
  let a := x.avgN * (2 ^ e - 1) + occQ s q * 2 ^ x.avgE
  let n := x.avgE + e
  let x := { x with avgN := a, avgE := n }
  let lo := rf s (f + 0x10 + 4 * col) 15 0 * 16
  let hi := rf s (f + 0x10 + 4 * col) 31 16 * 16
  let mp := rf s (f + 0x20 + 4 * col) 7 0
  (x, decide (hi * 2 ^ n ≤ a) ||
    (decide (lo * 2 ^ n < a) && decide (w.toNat * 256 * ((hi - lo) * 2 ^ n) < 2 ^ 32 * mp * (a - lo * 2 ^ n))))

/-- Judge a packet of `k` cells and colour `col` for queue `q` of instance `i` (R382): the drop reason, if one. RND is a
free draw. -/
def tmJudge (q i k col : Nat) (s : State) : Option Nat × State :=
  if (qPath s q).isNone then (some 0x53, s)
  else if rf s (0x3A88800 + 0x20 * i) 19 0 < occI s i + k then (some 0x52, s)
  else if rf s (tmQCfg q + 4) 19 0 < occQ s q + k then (some 0x50, s)
  else if rf s (tmQCfg q) 31 30 = 1 then
    let (w, s) := drawWord s
    let (x, d) := wred s q col w
    (if d then some 0x51 else none, setTmQ q x s)
  else (none, s)

/-- A queue's tail is not empty (R386). -/
def tailFull (x : TmQ) : Bool := x.pkts.any (fun p => p.place == 1 || p.place == 2)

/-- Cells of an instance's spill area in use: a spilled packet takes its cells there until it has been read back. -/
def spillUsed (s : State) (i : Nat) : Nat :=
  ((instPkts s i).map (fun p => if p.place = 0 then 0 else pktCells s p.cell)).sum

/-- Where an arriving packet goes (R386), and what is counted. -/
def tmPlace (q i k : Nat) (s : State) : Nat × State :=
  let w := tmQCfg q + 8
  let x := tmQ s q
  let on := (x.pkts.map (fun p => if p.place = 2 then 0 else pktCells s p.cell)).sum
  if rb s w 31 && (tailFull x || decide (rf s w 17 0 < on) || decide (sharedFree s < (rf s 0x3A08004 17 0 : Int))) then
    if spillUsed s i + k ≤ rf s (0x3A88810 + 0x20 * i) 16 0 * 4096 then (1, cnt (tmInstCnt i 3) s)
    else (0, cnt (tmInstCnt i 4) s)
  else (0, s)

/-- Append an admitted packet to its queue (R382). -/
def tmAppend (q cell : Nat) (s : State) : State :=
  let p := (pktOf s cell).getD Pkt.init
  let first := (tmQ s q).pkts.isEmpty
  let (pl, s) := tmPlace q p.inst p.cells s
  let s := setPkt cell { p with since := s.clk.fab } s
  let x := tmQ s q
  let s := cnt (tmInstCnt p.inst 0) (setTmQ q { x with pkts := x.pkts ++ [{ cell := cell, place := pl }] } s)
  if first then headNew q s else s

/-- The queue a mirror copy enters: the lowest-numbered of its instance and class under a service node of the mirror port
(R383). -/
def mirrorQ (s : State) (i port : Nat) : Option Nat :=
  (mkeys ((s.img.qhie.filter (fun r => r.level == 0 && r.inst == i && r.cls == rf s (0x3A88814 + 0x20 * i) 2 0 &&
    (qPort s r.node == some port))).foldl (fun (m : List (Nat × Unit)) r => mins m r.node ()) [])).head?

/-- Make a mirror copy of a packet as received to a port, cut to `trunc` times 64 bytes (R383, 09 R270): whether it was
made. -/
def mirrorCopy (cell port trunc : Nat) (s : State) : Bool × State :=
  match pktOf s cell with
  | none => (false, s)
  | some p =>
    let bs := if trunc = 0 then p.win else p.win.take (trunc * 64)
    let k := cdiv bs.length 256
    let no (s : State) : Bool × State := (false, cnt (tmInstCnt p.inst 2) s)
    match mirrorQ s p.inst port with
    | none => no s
    | some q =>
      if sharedFree s < (max (rf s 0x3A08000 17 0) k : Int) then no s
      else match tmJudge q p.inst k p.colour s with
        | (some _, s) => no s
        | (none, s) => match freeCell s with
          | (none, s) => no s
          | (some c, s) =>
            let s := setPkt c { p with
              win := bs, bytes := bs, edits := [], mirrors := 0, oneStep := none, jseq := none, cells := k, guar := 0,
              shared := k, head := 0, saved := [], copy := true, trap := none, queue := q, scan := none } s
            let s := { s with port := { s.port with sharedUsed := s.port.sharedUsed + k } }
            (true, tmAppend q c (epochInc p.inst p.slot s))

/-- Frames on their way to a host port from queues of a class: they hold its next buffers and completions (16 R428). -/
def hostClaims (s : State) (n c : Nat) : Nat :=
  ((s.port.toEdit ++ s.port.toTx).filter (fun f => f.port == n && f.cls == c)).length

/-- A host port can take a frame of a class: an unused buffer in its RXB ring and room in its RXC ring (16 R428). -/
def hostReady (s : State) (n c : Nat) : Bool :=
  let f := n - 64
  ringLive s f (8 + c) && ringLive s f (16 + c) && decide (hostClaims s n c < ringLen s f (8 + c)) &&
  decide (ringLen s f (16 + c) + hostClaims s n c < ringSize s f (16 + c))

/-- Drop every packet of a queue with a reason. -/
def tmDropQ (r q : Nat) : Nat → State → State
  | 0, s => s
  | n + 1, s => match (tmQ s q).pkts with
    | [] => s
    | x :: _ => tmDropQ r q n (pktDrop r x.cell (tmPop q s))

/-- Empty a queue. -/
def tmFlushQ (r q : Nat) (s : State) : State := tmDropQ r q (tmQ s q).pkts.length s

/-- Drop every packet in an instance's queues and set its credits and deficits to 0 (R384). -/
def tmInstReset (r i : Nat) (s : State) : State :=
  let own := s.img.qhie.filter (fun q => q.inst == i)
  let s := foldS (own.filter (fun q => q.level == 0)) (fun q s => tmFlushQ r q.node s) s
  let nodes := own.map (fun q => nodeKey q.level q.node)
  let creds := credKey 7 i :: (nodes.map (fun k => [nodeCred false k, nodeCred true k])).flatten
  let s := foldS creds (fun k s => if mhas s.tm.cred k then setCred k { cred := 0, last := s.clk.fab, due := none } s else s) s
  { s with tm := { s.tm with dfc := s.tm.dfc.filter (fun e => !nodes.contains (e.1 / 8)) } }

end Sys2Proof.Machine
end

