-- ==== Sys2Proof/Machine/Access.lean ====
section
/-! DEFINITION. Which registers a requester reaches (20_register_map.md R520 to R526, and the window rule each chapter
states for its registers). -/

namespace Sys2Proof.Machine

/-- The size of one copy of block `b` that has several (R519, 03 R121, 04 R156, R157). -/
def blkStride (b : Nat) : Option Nat := if b = 9 then some 0x10000 else if b = 13 || b = 14 then some 0x100000 else none

/-- Where block `b` starts. -/
def blkStart (b : Nat) : Nat := (blkBase[b]?).getD 0

/-- The copy of its block that holds an offset. -/
def copyOf (off : Nat) : Nat := match blkStride (blkOf off) with
  | some st => (off - blkStart (blkOf off)) / st
  | none => 0

/-- An offset within its block copy (01 R49). -/
def inCopy (off : Nat) : Nat := match blkStride (blkOf off) with
  | some st => (off - blkStart (blkOf off)) % st
  | none => off - blkStart (blkOf off)

/-- An offset lies on an expert page (01 R49). -/
def onExpert (off : Nat) : Bool := decide (0x8000 ≤ inCopy off)

/-- An offset lies on a basic page (01 R49). -/
def onBasic (off : Nat) : Bool := decide (0x100 ≤ inCopy off) && decide (inCopy off < 0x1000)

/-- BLK_CFGSTS or BLK_STATE (01 R49); the rest of the common header holds no register. -/
def isHdr (off : Nat) : Bool := inCopy off == 0 || inCopy off == 4

/-- The first accepted write to an expert page sets EXPERT of its block copy (01 R51). -/
def expertSet (off : Nat) (s : State) : State :=
  if onExpert off then blkMod s (blkOf off) (copyOf off) (fun k => { k with expert := true }) else s

/-- A write to an expert page that GLB_EXPDENY refuses (R528). -/
def expertDenied (s : State) (off : Nat) : Bool := onExpert off && rb s 0x1028 (blkOf off)

/-- The index of an offset in an array of `n` entries of `st` bytes from `a`. -/
def arrIx (off a st n : Nat) : Option Nat := if a ≤ off && off < a + st * n then some ((off - a) / st) else none

/-- An offset's index in an array satisfies `p`; false outside the array. -/
def arrOk (off a st n : Nat) (p : Nat → Bool) : Bool := match arrIx off a st n with
  | some k => p k
  | none => false

/-- Node `k` of level `l` of the queue hierarchy belongs to an instance. -/
def ownsNode (s : State) (l i k : Nat) : Bool := match nodeRec s l k with
  | some r => r.inst == i
  | none => false

/-- A virtual function's window holds the register at an offset, for function `v` (from 1) and its instance `i`: the window
rules of R105, R110, R189, R190, R213, R317, R332, R348, R371, R372, R397, R422, R442, R443, R462, R471, R472, R486. -/
def vfWin (s : State) (v i : Nat) (off : Nat) (write : Bool) : Bool :=
  let own (n : Nat) : Bool := portInst s n == some i
  let ownMac (m : Nat) : Bool := match macPort s m with
    | some r => r.inst == i
    | none => false
  let core (c : Nat) : Bool := coreInst s c == some i
  let inst (a st : Nat) : Bool := arrOk off a st 32 (· == i)
  match blkOf off with
  | 0 => off == 0x1000 || off == 0x1010 || off == 0x1014
  | 3 => off == 0x201400
  | 4 => decide (0x281000 ≤ off) && off != 0x281048 && off != 0x28104C
  | 6 => arrOk off 0x381000 0x20 64 (fun k => !write && rb s (0x381000 + 0x20 * k) 24 && rf s (0x381000 + 0x20 * k) 20 16 == i)
  | 10 => decide (0xC01000 ≤ off) && decide (off < 0xC01200)
  | 11 => (!write && arrOk off 0xE01000 4 4 (fun _ => true)) || arrOk off 0xE01100 0x10 64 ownMac
  | 16 => inst 0x2000100 4 || inst 0x2001000 4 || arrOk off 0x2001100 4 14 (fun _ => true) || inst 0x2001400 0x40 ||
      inst 0x2001C00 0x20 || inst 0x2008000 4 || inst 0x2008080 4 || inst 0x2008100 4 ||
      arrOk off 0x2008400 4 255 (fun x => match posyRec s x with
        | some r => r.inst == i
        | none => false)
  | 17 => off == 0x2401000 || off == 0x2401004 || inst 0x2401100 0x20
  | 18 => arrOk off 0x2801000 0x20 132 core || arrOk off 0x2803000 0x20 132 core || arrOk off 0x2805000 4 132 core ||
      arrOk off 0x2805400 0x10 132 core || arrOk off 0x2806000 0x20 132 core || arrOk off 0x2807800 4 5 (fun _ => true) ||
      arrOk off 0x2809000 0x10 132 core
  | 19 => arrOk off 0x2C01000 0x100 32 (fun k => clusterInst s k == some i) ||
      arrOk off 0x2C03000 0x80 32 (fun k => clusterInst s k == some i) ||
      arrOk off 0x2C04000 4 32 (fun k => clusterInst s k == some i) || arrOk off 0x2C05000 4 10 (fun _ => true) ||
      inst 0x2C08000 0x40
  | 20 => off == 0x3001000 || off == 0x3001004 || inst 0x3001100 0x20 ||
      (!write && (inst 0x3008000 4 || inst 0x3008080 4 || inst 0x3008100 4))
  | 21 => arrOk off 0x3201000 4 16 (fun k => ownsPool s i k) || arrOk off 0x3201100 0x10 16 (fun k => ownsPool s i k) ||
      arrOk off 0x3202000 0x20 16 (fun k => ownsPool s i k) || inst 0x3203000 0x10 ||
      (!write && arrOk off 0x3208000 0x10 16 (fun k => ownsPool s i k))
  | 22 =>
      let tab (t : Nat) : Bool := match tgeoRec s t with
        | some g => g.inst == i
        | none => false
      arrOk off 0x3401000 4 0x28 (fun _ => true) || arrOk off 0x3402000 0x20 255 tab || arrOk off 0x3404000 0x10 255 tab ||
      inst 0x3405000 4 || arrOk off 0x3408000 4 255 tab
  | 23 => inst 0x3801000 0x10 || arrOk off 0x3801400 4 8 (fun _ => true) || inst 0x3802000 0x80 || inst 0x3808000 4 ||
      inst 0x3808100 0x10 || inst 0x3808400 0x10
  | 24 => inst 0x3A01400 0x40 || inst 0x3A01C00 0x20 || arrOk off 0x3A02000 0x20 97 own || arrOk off 0x3A03000 4 64 own ||
      arrOk off 0x3A04000 4 2 (fun _ => true) || arrOk off 0x3A04100 4 4 (fun _ => true) || arrOk off 0x3A04200 4 64 own ||
      inst 0x3A04800 4 || arrOk off 0x3A40000 0x10 16384 (ownsNode s 1 i) || arrOk off 0x3A80000 0x10 2048 (ownsNode s 2 i) ||
      arrOk off 0x3A8A000 0x20 64 own || arrOk off 0x3B00000 0x10 65536 (ownsNode s 0 i) ||
      (!write && (arrOk off 0x3A00100 4 97 own || arrOk off 0x3A88000 0x10 97 own || inst 0x3A88800 0x20 ||
        arrOk off 0x3A89000 0x40 64 (fun _ => true) || arrOk off 0x3A90010 0x10 4095 (fun _ => true)))
  | 26 => arrOk off 0x3D01000 4 64 own || arrOk off 0x3D02000 0x20 64 own || arrOk off 0x3D03000 0x20 64 own
  | 27 => inst 0x3E01C00 4
  | 28 => arrOk off 0x3F02000 0x80 33 (· == v) || arrOk off 0x3F04000 0x20 33 (· == v) || arrOk off 0x3F05000 0x80 33 (· == v) ||
      arrOk off 0x3F08000 0x400 33 (· == v)
  | 29 => inst 0x3F81100 4 || arrOk off 0x3F81200 4 2 (fun _ => true) || arrOk off 0x3F81300 4 3 (fun _ => true) ||
      inst 0x3F82000 0x40 || (!write && inst 0x3F88000 4)
  | _ => false

/-- A register only the steward writes, or that only the steward and the physical function reach, refuses a requester
(R526): as R328, R470, R517, R528, R531 and R348 state. -/
def refuses (d : RegDesc) (r : Req) (write : Bool) : Bool :=
  match r with
  | .steward => false
  | .pf => d.stwOnly && (write || blkOf d.off == 20)
  | _ => d.pfOnly || (d.stwOnly && (write || blkOf d.off == 20))

/-- Judge an access of a requester to an offset: none, or the CAUSE of GLB_ACCERR (R526): 2 EMPTY, 3 REQUESTER, 4 WINDOW.
The JTAG port reaches its own copy of SEC and, under a
JTAG_PRIV session, what the physical function reaches (R520; which offsets the session admits is a DESIGN CHOICE). After a failed boot only the GLB, CLK, RST and FUS blocks are present
(19 R510). -/
def access (r : Req) (off : Nat) (write : Bool) (s : State) : Option Nat :=
  if s.boot.phase = 4 && decide (3 < blkOf off) then some 2
  else match r with
  | .vf v =>
    match reqInst s r with
    | some i => if vfWin s (v.val + 1) i off write then none else some 4
    | none => some 4
  | .jtag =>
    let priv := match mfind s.sec.sess (reqIdx r) with
      | some x => x.rights.testBit 1
      | none => false
    if blkOf off = 4 then (if (regRow off).isSome || isHdr off then none else some 2)
    else if !priv then some 3
    else match regRow off with
      | none => if isHdr off then none else some 2
      | some d => if d.stwOnly && write then some 3 else none
  | _ => match regRow off with
    | none => if isHdr off then none else some 2
    | some d => if refuses d r write then some 3 else none

/-- Carry out a command a requester writes, where the register it is written to admits the requester. -/
def asked (r : Req) (off : Nat) (f : State → State) (s : State) : State :=
  match access r off true s with
  | some c => accErr r c off s
  | none => f s

/-- The status register of a command register reads BUSY: a command written then is rejected (17 R471, 16 R439, 20 R531). -/
def cmdBusy (r : Req) (off : Nat) (s : State) : Bool :=
  match off with
  | 0x281000 => rb s (reqKey r 0x281004) 31
  | 0x3F81200 => rb s (reqKey r 0x3F81204) 31
  | 0x48100C => rb s 0x481010 31
  | _ => false

/-- The key of a register's word for a requester (R520). -/
def regKey (r : Req) (off : Nat) : Nat :=
  match regRow off with
  | some d => if d.perReq then reqKey r off else off
  | none => off

/-- A command whose register keeps the fields written with it, `w`; the command bits themselves read 0 again. -/
def askedW (r : Req) (off : Nat) (w : Nat) (f : State → State) (s : State) : State :=
  asked r off (fun s => f (if cmdBusy r off s then s else rset s (regKey r off) (w32 w))) s

/-- The same for a register on an expert page: GLB_EXPDENY may refuse the write (R528), and one that is accepted sets EXPERT
(01 R51). -/
def askedX (r : Req) (off : Nat) (f : State → State) (s : State) : State :=
  asked r off (fun s => if expertDenied s off then accErr r 5 off s else f s) s

/-- The steward is up: STW_UP of RST_STS (19 R517). -/
def stwUp (s : State) : Bool := rb s 0x181000 30

/-- A command to INS, SEC, FUS or LCK_SCMD is carried out, or held while STW_UP is 0 (19 R513). -/
def stwDo (i : Instr) (f : State → State) (s : State) : State :=
  if stwUp s then f s else { s with ctl := { s.ctl with held := s.ctl.held ++ [i] } }

end Sys2Proof.Machine
end

