-- ==== Sys2Proof/Machine/Crc.lean ====
section
/-! DEFINITION. Cyclic redundancy checks (10_coprocessors.md R289): the bit-serial computation, with no initial value and
no final inversion of its own. -/

namespace Sys2Proof.Machine

/-- One bit of a reflected CRC with reversed polynomial `poly`. -/
def crcRBit (poly c : Nat) : Nat := if c % 2 = 1 then (c / 2) ^^^ poly else c / 2

/-- `n` bits of a reflected CRC. -/
def crcRBits (poly : Nat) : Nat → Nat → Nat
  | 0, c => c
  | n + 1, c => crcRBits poly n (crcRBit poly c)

/-- Advance a reflected CRC over bytes. -/
def crcR (poly c : Nat) (bs : List Byte) : Nat := bs.foldl (fun c b => crcRBits poly 8 (c ^^^ b.toNat)) c

/-- CRC-32C: polynomial 0x1EDC_6F41 (R289). -/
def crc32cPoly : Nat := 0x82F63B78

/-- CRC-32: polynomial 0x04C1_1DB7. -/
def crc32Poly : Nat := 0xEDB88320

/-- CRC-16 reflected: polynomial 0x8005. -/
def crc16rPoly : Nat := 0xA001

/-- `n` bits of the 16-bit CRC that is not reflected, polynomial 0x1021. -/
def crcNBits : Nat → Nat → Nat
  | 0, c => c
  | n + 1, c => crcNBits n (if 32768 ≤ c then (c * 2 % 65536) ^^^ 0x1021 else c * 2)

/-- Advance the CRC that is not reflected over bytes. -/
def crcN (c : Nat) (bs : List Byte) : Nat := bs.foldl (fun c b => crcNBits 8 (c ^^^ (b.toNat * 256))) c

end Sys2Proof.Machine
end

