-- ==== Sys2Proof/Machine/TblOps.lean ====
section
/-! DEFINITION. Forwarding tables, learning and aging (13_tables_learning.md R349 to R370): the operations that the
classifier, the LKP unit and the TBL commands share. -/

namespace Sys2Proof.Machine

/-- Key bytes of a table (R349). -/
def keyBytes (g : TgeoRec) : Nat :=
  if g.kind = 0 then (if g.width = 0 then 5 else if g.width = 1 then 7 else 23)
  else if g.kind = 1 then (if g.width = 0 then 20 else 40) else 8

/-- Buckets of a table (R353). -/
def tblNB (g : TgeoRec) : Nat := if g.kind = 2 then g.size / 4 else g.size

/-- SEED_A and SEED_B of a HASHSEL (R353). -/
def tblSeeds (h : Nat) : Nat × Nat :=
  match h with
  | 0 => (0xFFFFFFFF, 0x5A5A5A5A)
  | 1 => (0x13579BDF, 0x2468ACE0)
  | 2 => (0x0F1E2D3C, 0x4B5A6978)
  | _ => (0x7F4A7C15, 0x9E3779B9)

/-- The two buckets of a key (R353). -/
def tblBuckets (g : TgeoRec) (key : Nat) : Nat × Nat :=
  let bs := beBytes (keyBytes g) key
  let nb := tblNB g
  let b1 := crcR crc32cPoly (tblSeeds g.hash).1 bs % nb
  let b2 := crcR crc32cPoly (tblSeeds g.hash).2 bs % nb
  (b1, if b2 = b1 then (b1 + 1) % nb else b2)

/-- The replica of a table that pipe `p` reads: its own for a learning table, 0 otherwise. -/
def tblRep (g : TgeoRec) (p : Nat) : Nat := if g.kind = 2 then p % 4 else 0

/-- The key of way `w` of bucket `b`. -/
def entKey (t r b w : Nat) : Nat := (t * 4 + r) * 2 ^ 22 + b * 4 + w

/-- The entry at a way. -/
def entAt (s : State) (t r b w : Nat) : Option TEnt := mfind s.tbl.ent (entKey t r b w)

/-- Write or clear the entry at a way. -/
def entSet (t r b w : Nat) (e : Option TEnt) (s : State) : State :=
  { s with tbl := { s.tbl with ent := mset s.tbl.ent (entKey t r b w) e } }

/-- The ways of both buckets that hold a key. -/
def tblWays (s : State) (g : TgeoRec) (r key : Nat) : List (Nat × Nat) :=
  let b := tblBuckets g key
  ((if b.1 = b.2 then [b.1] else [b.1, b.2]).map (fun x => (List.range 4).map (fun w => (x, w)))).flatten.filter
    (fun p => match entAt s g.table r p.1 p.2 with
      | some e => e.key == key
      | none => false)

/-- The lowest free way of a bucket. -/
def freeWay (s : State) (t r b : Nat) : Option Nat := (List.range 4).find? (fun w => (entAt s t r b w).isNone)

/-- TBL_CNT[t][k] (R371). -/
def tblCnt (t k : Nat) : Nat := 0x3402000 + 0x20 * t + 4 * k

/-- The word a hit delivers (R350, R351). -/
def hitWord (g : TgeoRec) (e : TEnt) : Nat :=
  if g.kind = 2 then 0xFFFFFFFF * 2 ^ 32 + 2 ^ 31 + e.res
  else if g.width = 0 then 0xFFFFFFFF * 2 ^ 32 + e.res % 65536
  else e.res

/-- The miss word (04 R144). -/
def missWord : Nat := 0xFFFFFFFF * 2 ^ 32

/-- Set HIT of the ways given (R355, R365). -/
def tblHit (t r : Nat) (ws : List (Nat × Nat)) (s : State) : State :=
  ws.foldl (fun s p => match entAt s t r p.1 p.2 with
    | some e => entSet t r p.1 p.2 (some { e with hit := true }) s
    | none => s) s

/-- An associative entry matches a key (R352). -/
def amMatch (e : AmEnt) (key : Nat) : Bool := (e.value ^^^ key) &&& e.mask == 0

/-- The first matching entry of an associative table (04 R143). -/
def amLookup (s : State) (g : TgeoRec) (key : Nat) : Option Nat :=
  ((s.tbl.am.filter (fun p => decide (g.base ≤ p.1) && decide (p.1 < g.base + g.size) && amMatch p.2 key)).head?).map
    (fun p => p.2.res)

/-- Only source lookups set HIT in this instance's learning tables (R365). -/
def hitSets (s : State) (g : TgeoRec) (source : Bool) : Bool :=
  g.kind != 2 || source || !rb s (0x3808000 + 4 * g.inst) 30

/-- A lookup in a table as pipe `p` sees it: the result word on a hit (R355, R365). -/
def tblLookup (g : TgeoRec) (p key : Nat) (source : Bool) (s : State) : Option Nat × State :=
  let s := cnt (tblCnt g.table 0) s
  if g.kind = 1 then
    match amLookup s g key with
    | some w => (some w, cnt (tblCnt g.table 1) s)
    | none => (none, s)
  else
    let r := tblRep g p
    match tblWays s g r key with
    | [] => (none, s)
    | (b, w) :: t =>
      match entAt s g.table r b w with
      | none => (none, s)
      | some e =>
        let s := if hitSets s g source then tblHit g.table r ((b, w) :: t) s else s
        (some (hitWord g e), cnt (tblCnt g.table 1) s)

/-- VICTIM of a table and replica (R357). -/
def victimOf (s : State) (t r : Nat) : Nat := mget s.tbl.victim (t * 4 + r) 0

/-- The search of R357 from bucket `cur`, way `w`: the path of relocations, first step first, or none for TABLE_FULL. -/
def tblPath (s : State) (g : TgeoRec) (r : Nat) : Nat → Nat → Nat → List Nat → Option (List (Nat × Nat × Nat))
  | 0, _, _, _ => none
  | n + 1, cur, w, visited =>
    match entAt s g.table r cur w with
    | none => none
    | some e =>
      let b := tblBuckets g e.key
      let alt := if b.1 = cur then b.2 else b.1
      if visited.contains alt then none
      else match freeWay s g.table r alt with
        | some _ => some [(cur, w, alt)]
        | none => match tblPath s g r n alt ((w + 1) % 4) (alt :: visited) with
          | some p => some ((cur, w, alt) :: p)
          | none => none

/-- One relocation (R358): the new copy keeps HIT, and STALE is cleared where HIT is 1. -/
def tblMove (t r : Nat) (st : Nat × Nat × Nat) (s : State) : State :=
  match entAt s t r st.1 st.2.1, freeWay s t r st.2.2 with
  | some e, some w =>
    cnt (tblCnt t 3) (entSet t r st.1 st.2.1 none (entSet t r st.2.2 w (some { e with stale := e.stale && !e.hit }) s))
  | _, _ => s

/-- INSERT into one table or replica (R357): its status (10 R298). -/
def tblInsert (g : TgeoRec) (r key : Nat) (e : TEnt) (s : State) : Nat × State :=
  let t := g.table
  let b := tblBuckets g key
  if !(tblWays s g r key).isEmpty then (2, s)
  else
    let done (s : State) : Nat × State := (0, cnt (tblCnt t 2) s)
    match freeWay s t r b.1 with
    | some w => done (entSet t r b.1 w (some e) s)
    | none => match freeWay s t r b.2 with
      | some w => done (entSet t r b.2 w (some e) s)
      | none =>
        let v := victimOf s t r
        let s := { s with tbl := { s.tbl with victim := mput s.tbl.victim (t * 4 + r) (v + 1) 0 } }
        match tblPath s g r 32 b.1 (v % 4) [b.1] with
        | none => (3, cnt (tblCnt t 4) s)
        | some path =>
          let s := path.reverse.foldl (fun s st => tblMove t r st s) s
          done (entSet t r b.1 (v % 4) (some e) s)

/-- UPDATE of one table or replica (R359). -/
def tblUpdate (g : TgeoRec) (r key : Nat) (e : TEnt) (s : State) : Nat × State :=
  match tblWays s g r key with
  | [] => (4, s)
  | ws => (0, ws.foldl (fun s p => match entAt s g.table r p.1 p.2 with
      | some o => entSet g.table r p.1 p.2 (some { e with hit := o.hit, stale := false }) s
      | none => s) s)

/-- DELETE from one table or replica (R359). -/
def tblDelete (g : TgeoRec) (r key : Nat) (s : State) : Nat × State :=
  match tblWays s g r key with
  | [] => (4, s)
  | ws => (0, ws.foldl (fun s p => entSet g.table r p.1 p.2 none s) s)

/-- The entry a write command stores, or none where its result word is out of range (R350, R351). -/
def tblEnt (g : TgeoRec) (key res : Nat) : Option TEnt :=
  if g.kind = 2 then
    if nbits res 63 32 = 0xFFFFFFFF && !portReserved (nbits res 30 24) then
      some { key := key, hit := false, stat := nbits res 31 31 == 1, stale := false, res := nbits res 30 0 }
    else none
  else if g.width = 0 then
    if nbits res 63 16 = 0xFFFFFFFF0000 then
      some { key := key, hit := false, stat := false, stale := false, res := nbits res 15 0 }
    else none
  else some { key := key, hit := false, stat := false, stale := false, res := res }

/-- The key of an operand of 32 or 40 bytes: the number its first bytes give, or none where a byte beyond the table's
width is not 0, or a learning FID has bits [15:12] set (R349). -/
def tblKey (g : TgeoRec) (ws : List Word) : Option Nat :=
  let v := ws.foldl (fun a w => a * 2 ^ 32 + w.toNat) 0
  let sh := 2 ^ (32 * ws.length - 8 * keyBytes g)
  let k := v / sh
  if v % sh != 0 then none
  else if g.kind = 2 && k / 2 ^ 60 != 0 then none
  else some k

/-- The table's write count after a write, in the journal (18 R494): `op` as TBL_CMD gives it, `src` 0 program, 1 host,
2 steward, 3 aging. -/
def tblWrote (g : TgeoRec) (op pipes src : Nat) (who : JWho) (s : State) : State :=
  let n := mget s.tbl.writes g.table 0 + 1
  let s := { s with tbl := { s.tbl with writes := mput s.tbl.writes g.table n 0 } }
  jnlInput 10 who [n % 2 ^ 32 * 2 ^ 32 + g.table * 2 ^ 24 + op * 2 ^ 20 + pipes * 2 ^ 16 + src * 2 ^ 14] s

/-- Who an INPUT record names for an event no thread caused. -/
def whoNone (i : Nat) : JWho := { core := 0, thread := 0, pass := 0, exec := 0, inst := i, nonpkt := true, seq := 0 }

/-- Valid entries of a table and replica (R371). -/
def tblUse (s : State) (t r : Nat) : Nat :=
  match tgeoRec s t with
  | none => 0
  | some g =>
    if g.kind = 1 then
      if r = 0 then (s.tbl.am.filter (fun p => decide (g.base ≤ p.1) && decide (p.1 < g.base + g.size))).length else 0
    else if g.kind = 2 || r = 0 then
      (s.tbl.ent.filter (fun p => decide (p.1 / 2 ^ 22 = t * 4 + r))).length
    else 0

/-- A table's contents are cleared, and VICTIM with them (R357, R370). -/
def tblClear (g : TgeoRec) (s : State) : State :=
  { s with tbl := { s.tbl with
      ent := mclear s.tbl.ent (g.table * 4 * 2 ^ 22) (2 ^ 24),
      victim := mclear s.tbl.victim (g.table * 4) 4,
      am := if g.kind = 1 then mclear s.tbl.am g.base g.size else s.tbl.am } }

/-- LRN_CNT[i][p][k] (R372). -/
def lrnCnt (i p k : Nat) : Nat := 0x3802000 + 0x80 * i + 0x20 * p + 4 * k

/-- LRN_QSTS[i][p]. -/
def lrnSts (i p : Nat) : Nat := 0x3801000 + 0x10 * i + 4 * p

/-- LRN_QCFG[i][p]. -/
def lrnCfg (i p : Nat) : Nat := 0x3808100 + 0x10 * i + 4 * p

/-- The byte address in DRAM of an instance's learn queue (R367). -/
def lrnAddr (s : State) (i p : Nat) : Nat :=
  instF s i (·.dramBase) * 1048576 + rf s (0x3808400 + 0x10 * i + 4 * p) 24 0 * 4096

/-- PROD of a learn queue. -/
def lrnProd (s : State) (i p : Nat) : Nat := rf s (lrnSts i p) 16 0

/-- CONS of a learn queue: the device's own where the host consumes, else the one in DRAM (R367). -/
def lrnCons (s : State) (i p : Nat) : Nat :=
  if rb s (lrnCfg i p) 30 then leVal (memRdN s.dram 0 (lrnAddr s i p + 4) 4) % 2 ^ 17
  else mget s.tbl.cons (i * 4 + p) 0

/-- Messages in a learn queue. -/
def lrnLen (s : State) (i p : Nat) : Nat := (lrnProd s i p + 2 ^ 17 - lrnCons s i p) % 2 ^ 17

/-- A learn queue takes no message: it is full (R367), or it is not VALID. -/
def lrnFull (s : State) (i p : Nat) : Bool :=
  !rb s (lrnCfg i p) 31 || decide (lrnLen s i p = 2 ^ rf s (lrnCfg i p) 29 25)

/-- Write bytes of DRAM. -/
def dramWr (a : Nat) (bs : List Byte) (s : State) : State := { s with dram := memWrN s.dram 0 a bs }

/-- Append a message to a learn queue that has room (R367). -/
def lrnPut (i p : Nat) (ws : List Word) (s : State) : State :=
  let a := lrnAddr s i p
  let n := lrnProd s i p
  let s := dramWr (a + 64 + 16 * (n % 2 ^ rf s (lrnCfg i p) 29 25)) (wordBytes ws) s
  let n' := (n + 1) % 2 ^ 17
  rsetF (dramWr a (leBytes 4 n') s) (lrnSts i p) 16 0 n'

/-- Set PROD and CONS of a learn queue to 0 (R367). -/
def lrnZero (i p : Nat) (s : State) : State :=
  let s := dramWr (lrnAddr s i p) (leBytes 8 0) s
  rsetF { s with tbl := { s.tbl with cons := mdel s.tbl.cons (i * 4 + p) } } (lrnSts i p) 16 0 0

/-- A learn message (R368). -/
def lrnMsg (s : State) (kind p t portA portB fid mac : Nat) : List Word :=
  [w32 (kind * 2 ^ 28 + p * 2 ^ 26 + t * 2 ^ 16 + portB % 128 * 256 + portA % 128),
   w32 (nbits mac 47 32 * 65536 + fid % 4096), w32 (nbits mac 31 0), w32 s.clk.fab]

/-- The learn filter of a pipe. -/
def filtOf (s : State) (p : Nat) : List FiltEnt := mget s.tbl.filt p []

/-- Replace the learn filter of a pipe. -/
def setFilt (p : Nat) (l : List FiltEnt) (s : State) : State := { s with tbl := { s.tbl with filt := mput s.tbl.filt p l [] } }

/-- Remove the filter entries of a pipe that are WINDOW_US old (R364). -/
def filtExpire (p : Nat) (s : State) : State :=
  let win := rf s 0x3808800 15 0 * 1000
  setFilt p ((filtOf s p).filter (fun f => decide (s.clk.fab < f.made + win))) s

/-- An offer to the learn filter of a pipe with arrival port `q`; `moved` carries the PORT of the entry hit (R364). -/
def lrnOffer (g : TgeoRec) (p key q : Nat) (moved : Option Nat) (s : State) : State :=
  let i := g.inst
  let fid := nbits key 59 48
  let mac := nbits key 47 0
  let s := filtExpire p s
  match (filtOf s p).find? (fun f => f.inst == i && f.table == g.table && f.fid == fid && f.mac == mac) with
  | none =>
    if lrnFull s i p then cnt (lrnCnt i p 5) s
    else
      let s := if 4096 ≤ (filtOf s p).length then cnt (lrnCnt i p 6) (setFilt p (filtOf s p).tail s) else s
      let s := setFilt p (filtOf s p ++ [{ inst := i, table := g.table, fid := fid, mac := mac, port := q, moved := false, made := s.clk.fab }]) s
      match moved with
      | none => cnt (lrnCnt i p 0) (lrnPut i p (lrnMsg s 1 p g.table q 0 fid mac) s)
      | some o => cnt (lrnCnt i p 2) (lrnPut i p (lrnMsg s 3 p g.table o q fid mac) s)
  | some f =>
    if q = f.port || f.moved then cnt (lrnCnt i p 4) s
    else if lrnFull s i p then cnt (lrnCnt i p 5) s
    else
      let s := cnt (lrnCnt i p 1) (lrnPut i p (lrnMsg s 2 p g.table f.port q fid mac) s)
      setFilt p ((filtOf s p).map (fun x => if x = f then { x with moved := true } else x)) s

/-- What a source lookup in pipe `p` with arrival port `q` leads to (R363). `r`: its result word on a hit, `stat`: the
entry's STATIC. -/
def lrnSource (g : TgeoRec) (p key q : Nat) (r : Option Nat) (stat : Bool) (s : State) : State :=
  if !rb s (0x3808000 + 4 * g.inst) 31 then s
  else match r with
    | none => lrnOffer g p key q none s
    | some w =>
      if nbits w 30 24 = q then s
      else if stat then cnt (lrnCnt g.inst p 7) s
      else lrnOffer g p key q (some (nbits w 30 24)) s

/-- A lookup of a key profile; `source`: it is a source lookup (R363). -/
def profLookup (g : TgeoRec) (p key q : Nat) (source : Bool) (s : State) : Option Nat × State :=
  let stat := match tblWays s g (tblRep g p) key with
    | (b, w) :: _ => match entAt s g.table (tblRep g p) b w with
      | some e => e.stat
      | none => false
    | [] => false
  let (r, s) := tblLookup g p key source s
  (r, if source && g.kind = 2 then lrnSource g p key q r stat s else s)

end Sys2Proof.Machine
end

