-- ==== Sys2Proof/Machine/DramOps.lean ====
section
/-! DEFINITION. The DRAM controller's shared operations: the address mapping (15_dram.md R401), regions (R404), queues, urgency
and the scheduler's choice (R405 to R407), row trackers (R411) and the return of read data. -/

namespace Sys2Proof.Machine

/-- Timing word `k` of a set for a speed: the JEDEC value, and for word 7 the speed's code (R422). -/
def timWord (code speed set k : Nat) : Word := if k = 7 then w32 speed else Config.timBin code speed set k

/-- DMC_CHSTS of a channel (R422). -/
def chSts (ch : Nat) : Nat := 0x3E01000 + 4 * ch

/-- DMC_CNT[sc][k] (R422). -/
def dmcCnt (sc k : Nat) : Nat := 0x3E01100 + 0x40 * sc + 4 * k

/-- DMC_PORTCNT[p][k] (R422). -/
def dmcPort (p k : Nat) : Nat := 0x3E01800 + 0x20 * p + 4 * k

/-- A subchannel. -/
def dsub (s : State) (sc : Nat) : DSub := mget s.dmc.sub sc DSub.init

/-- Replace a subchannel. -/
def setDsub (sc : Nat) (d : DSub) (s : State) : State := { s with dmc := { s.dmc with sub := mput s.dmc.sub sc d DSub.init } }

/-- LEVEL of a channel (R422): 0 run, 1 3200 MT/s, 2 clock stopped, 3 changing. -/
def chLevel (s : State) (ch : Nat) : Nat := rf s (chSts ch) 25 24

/-- A populated and trained subchannel. -/
def scPresent (s : State) (sc : Nat) : Bool := rf s (chSts (sc / 2)) 31 30 == 3

/-- The subchannel is FAILED (R413). -/
def scFailed (s : State) (sc : Nat) : Bool := rb s (chSts (sc / 2)) (28 + sc % 2)

/-- The populated channels: 0 to N − 1 (R400). -/
def chCount (s : State) : Nat := (List.range 8).countP (fun c => rb s (chSts c) 31)

/-- The configuration code of the population (R399). -/
def dramCode (s : State) : Nat := rf s (chSts 0) 3 0

/-- Bits of log2 of the subchannels populated (R401). -/
def scBits (s : State) : Nat := if chCount s = 8 then 4 else if chCount s = 4 then 3 else if chCount s = 2 then 2 else 1

/-- The trained capacity of a population in MiB (R399). -/
def dramMiB (n code : Nat) : Nat := 2 * n * (if code = 0 then 4096 else 8192)

/-- Where a DRAM byte lies: subchannel, bank key and row (R401). -/
def dramMap (s : State) (d : Nat) : Nat × Nat × Nat :=
  let w := scBits s
  let code := dramCode s
  let sub := nbits d (8 + w - 1) 8 ^^^ nbits d (24 + w - 1) 24
  let l := nbits d 36 (8 + w) * 256 + nbits d 7 0
  let hi := if code = 2 then 16 else 15
  let bb := if code = 3 then 2 else 1
  let rb_ := if code = 1 then 1 else 0
  let bank := l / 2 ^ hi % 2 ^ bb
  let rank := l / 2 ^ (hi + bb) % 2 ^ rb_
  let row := l / 2 ^ (hi + bb + rb_) % 65536
  (sub, rank * 32 + (nbits l 10 8 ^^^ row % 8) * 4 + bank, row)

/-- The line requests of a transfer, in ascending address order (R402): address and length of each. -/
def dramLines : Nat → Nat → Nat → List (Nat × Nat)
  | 0, _, _ => []
  | n + 1, a, len =>
    if len = 0 then []
    else
      let k := min len (64 - a % 64)
      (a, k) :: dramLines n (a + k) (len - k)

/-- The master ID of a request (R403). -/
def masterOf (r : DReq) : Nat := r.port * 32 + r.inst

/-- A request lies in the region of its master ID (R404). -/
def dramRegion (s : State) (r : DReq) : Bool :=
  let cap := dramMiB (chCount s) (dramCode s) * 1048576
  let lo := if r.port = 9 then 0 else if r.port = 7 then rf s 0x408004 16 0 * 1048576 else instF s r.inst (·.dramBase) * 1048576
  let n := if r.port = 9 then cap else if r.port = 7 then rf s 0x408008 15 0 * 1048576
    else instF s r.inst (·.dramSize) * 1048576
  decide (lo ≤ r.addr) && decide (r.addr + r.len ≤ lo + n) && decide (r.addr + r.len ≤ cap)

/-- Two requests address one line. -/
def sameLine (a b : DReq) : Bool := a.addr / 64 == b.addr / 64

/-- TARGET_NS of a port (R403). -/
def dramTarget (s : State) (p : Nat) : Nat := rf s (0x3E08000 + 4 * p) 15 0

/-- URG of a request (R407). -/
def urgOf (s : State) (r : DReq) : Nat := min 3 (4 * (s.clk.fab - r.at_) / dramTarget s r.port)

/-- Give the reads at the head of a port whose answer is known to the port, in order of issue (R405). -/
def dramBack : Nat → Nat → State → State
  | 0, _, s => s
  | n + 1, p, s => match mget s.dmc.outr p [] with
    | d :: t =>
      if d.known then
        dramBack n p { s with dmc := { s.dmc with
          outr := mput s.dmc.outr p t [], back := mput s.dmc.back p (mget s.dmc.back p [] ++ [d]) [] } }
      else s
    | [] => s

/-- The answer of a read is known (R405). -/
def dramRead (p seq sts : Nat) (bs : List Byte) (s : State) : State :=
  let l := (mget s.dmc.outr p []).map (fun (x : DRead) =>
    if x.seq = seq then { x with known := true, sts := sts, bytes := bs } else x)
  dramBack l.length p { s with dmc := { s.dmc with outr := mput s.dmc.outr p l [] } }

/-- Count a completion: late past its target, and the highest latency since the last read (R408). -/
def dramLate (r : DReq) (s : State) : State :=
  let d := s.clk.fab - r.at_
  let s := if dramTarget s r.port < d then cnt (dmcPort r.port 1) s else s
  if (rv s (dmcPort r.port 3)).toNat < d then rset s (dmcPort r.port 3) (w32 (min d 0xFFFFFFFF)) else s

/-- POISON is returned or met at an address (R415). -/
def dramPoison (sc : Nat) (r : DReq) (s : State) : State :=
  let s := cnt (dmcPort r.port 2) (cnt (dmcCnt sc 3) s)
  let s := rset (rset s (0x3E02100 + 8 * sc) (w32 r.addr)) (0x3E02104 + 8 * sc) (w32 (r.addr / 2 ^ 32))
  ercReport 0x87 2 2 sc r.addr (some r.inst) s

/-- A write is performed (R405): its bytes stand in memory; a whole line replaces a reserved syndrome (R415). -/
def dramPerform (sc : Nat) (r : DReq) (s : State) : State :=
  match r.data with
  | none => s
  | some bs =>
    let s := dramWr r.addr bs s
    let s := if bs.length = 64 then { s with dmc := { s.dmc with bad := mput s.dmc.bad (r.addr / 64) false false } } else s
    dramLate r (cnt (dmcCnt sc 1) s)

/-- Pending writes enter the write queue in order of arrival, where it has room and no earlier request to their line is
left; a subchannel that FAILED discards them (R405, R413). -/
def wqEnter (sc : Nat) : List DReq → List DReq → State → State
  | _, [], s => s
  | seen, r :: t, s =>
    let d := dsub s sc
    if r.data.isSome && !seen.any (sameLine r) then
      if scFailed s sc then
        wqEnter sc seen t (setDsub sc { d with q := d.q.filter (fun x => x.seq != r.seq) } s)
      else if d.wq.length < 64 then
        wqEnter sc seen t (dramPerform sc r (setDsub sc { d with q := d.q.filter (fun x => x.seq != r.seq), wq := d.wq ++ [r] } s))
      else wqEnter sc (seen ++ [r]) t s
    else wqEnter sc (seen ++ [r]) t s

/-- Let the pending writes of a subchannel enter its write queue. -/
def wqFill (sc : Nat) (s : State) : State := wqEnter sc [] (dsub s sc).q s

/-- Requests to a subchannel go to its hold buffer for the present: a slice, a CA retraining, or a level change
(R413, R417, R419, R420). -/
def scHolds (s : State) (sc : Nat) : Bool :=
  (dsub s sc).slice || (dsub s sc).alert == 2 || decide (2 ≤ chLevel s (sc / 2))

/-- A request enters a subchannel: its hold buffer, its port while that is full, or its queue. -/
def scEnter (sc : Nat) (r : DReq) (s : State) : State :=
  let d := dsub s sc
  if scHolds s sc then
    if d.hold.length < 1024 && d.bp.isEmpty then setDsub sc { d with hold := d.hold ++ [{ r with held := true }] } s
    else cnt (dmcCnt sc 11) (setDsub sc { d with bp := d.bp ++ [r] } s)
  else wqFill sc (setDsub sc { d with q := d.q ++ [r] } s)

/-- The held requests are served first, in order of arrival; those that waited for room follow (R417). -/
def scUnhold (sc : Nat) (s : State) : State :=
  if scHolds s sc then s
  else
    let d := dsub s sc
    wqFill sc (setDsub sc { d with q := d.q ++ d.hold ++ d.bp, hold := [], bp := [] } s)

/-- Begin a level change of a channel (R419, R420). -/
def chChange (ch target : Nat) (s : State) : State :=
  rsetF { s with dmc := { s.dmc with lvl := mins s.dmc.lvl ch target } } (chSts ch) 25 24 3

/-- A master's activations of a bank wait under a throttle (R411). -/
def throttled (s : State) (d : DSub) (r : DReq) (key : Nat) : Bool :=
  match mfind d.thro (key * 512 + masterOf r) with
  | some (_, last) => decide (s.clk.fab < last + rf s 0x3E08044 15 0)
  | none => false

/-- The next command of a request is a column command: its row is open. -/
def rowHit (s : State) (d : DSub) (r : DReq) : Bool :=
  let m := dramMap s r.addr
  match mfind d.banks m.2.1 with
  | some b => b.row == m.2.2
  | none => false

/-- The requests the scheduler chooses from (R407), but for those the timing set withholds: reads not yet issued that no
earlier request to their line precedes and no write in the queue serves, and the queue's writes. -/
def dramCands (s : State) (d : DSub) (late : List Nat) : List DReq :=
  let reads := d.q.filter (fun r => r.data.isNone && !r.issued && !d.wq.any (sameLine r) &&
    !d.q.any (fun x => sameLine r x && decide (x.seq < r.seq)))
  (reads ++ d.wq).filter (fun r => !late.contains r.seq && (rowHit s d r || !throttled s d r (dramMap s r.addr).2.1))

/-- The scheduler prefers `a` to `b` (R407, R417). -/
def dramBefore (s : State) (d : DSub) (a b : DReq) : Bool :=
  let k (r : DReq) : Nat := b2n r.held * 16 + urgOf s r * 4 + b2n (rowHit s d r) * 2 + b2n (r.data.isSome == d.wdrain)
  let ha := if a.held then 16 else k a
  let hb := if b.held then 16 else k b
  decide (hb < ha) || (ha == hb && decide (a.seq < b.seq))

/-- The chosen request. -/
def dramChoose (s : State) (d : DSub) (l : List DReq) : Option DReq :=
  l.foldl (fun o r => match o with
    | none => some r
    | some b => if dramBefore s d r b then some r else some b) none

/-- Add one activation of a row by a master to a list of counts. -/
def rowBump (m : Nat) : List (Nat × Nat) → List (Nat × Nat)
  | [] => [(m, 1)]
  | (x, n) :: t => if x = m then (x, n + 1) :: t else (x, n) :: rowBump m t

/-- The total of the two largest counts of a row: what its entry holds (R411). -/
def rowTotal (l : List (Nat × Nat)) : Nat :=
  let a := l.foldl (fun b x => max b x.2) 0
  let rest := match l.find? (fun x => x.2 == a) with
    | some y => l.erase y
    | none => []
  a + rest.foldl (fun b x => max b x.2) 0

/-- The row whose entry is replaced: that of the lowest total (R411). -/
def rowLeast (l : List (Nat × List (Nat × Nat))) : Option Nat :=
  (l.foldl (fun (o : Option (Nat × Nat)) (r : Nat × List (Nat × Nat)) => match o with
    | none => some (r.1, rowTotal r.2)
    | some (k, n) => if rowTotal r.2 < n then some (r.1, rowTotal r.2) else some (k, n)) none).map (·.1)

/-- A tracker counts an activation (R411): the tracker and the master's count of the row. -/
def trkBump (l : List (Nat × List (Nat × Nat))) (row m : Nat) : List (Nat × List (Nat × Nat)) × Nat :=
  let l := match l.find? (fun (r : Nat × List (Nat × Nat)) => r.1 == row) with
    | some _ => l
    | none =>
      if l.length < 16 then l ++ [(row, [])]
      else match rowLeast l with
        | some k => l.filter (fun (r : Nat × List (Nat × Nat)) => r.1 != k) ++ [(row, [])]
        | none => l
  let l := l.map (fun (r : Nat × List (Nat × Nat)) => if r.1 = row then (r.1, rowBump m r.2) else r)
  let n := match l.find? (fun (r : Nat × List (Nat × Nat)) => r.1 == row) with
    | some r => (match r.2.find? (fun x => x.1 == m) with
      | some x => x.2
      | none => 0)
    | none => 0
  (l, n)

/-- Activate a row for a request: the accumulated count rises (R410), the tracker counts, and a master that reaches RH_THRESH is
throttled on the bank until the end of the following window (R411). -/
def dramAct (sc : Nat) (r : DReq) (s : State) : State :=
  let (_, key, row) := dramMap s r.addr
  let d := dsub s sc
  let m := masterOf r
  let (t, n) := trkBump (mget d.trk key []) row m
  let k := key * 512 + m
  let old := mfind d.thro k
  let hot := n == rf s 0x3E08044 31 16 && old.isNone
  let thro := match old with
    | some (w, _) => mins d.thro k (w, s.clk.fab)
    | none => if hot then mins d.thro k (2, s.clk.fab) else d.thro
  let s := setDsub sc { d with
    banks := mins d.banks key ⟨row, s.clk.fab⟩, raa := mmod d.raa key 0 (· + 1), trk := mput d.trk key t [], thro := thro } s
  if hot then
    rset (cnt (dmcCnt sc 10) s) (0x3E02000 + 4 * sc)
      (w32 (2 ^ 31 + m % 512 * 2 ^ 16 + key % 32 * 2 ^ 8 + key / 32 % 2 * 2 ^ 7))
  else s

/-- Remember a command of the subchannel, at most 32 (R412). -/
def dramHist (sc : Nat) (c : Option DReq) (s : State) : State :=
  let d := dsub s sc
  setDsub sc { d with hist := (c :: d.hist).take 32 } s

/-- A bank that needs refresh management: its count has reached RAAIMT (R410). -/
def rfmBank (s : State) (d : DSub) : Option Nat :=
  if s.dmc.imt = 0 then none else (d.raa.find? (fun p => decide (s.dmc.imt ≤ p.2))).map (·.1)

end Sys2Proof.Machine
end

