-- ==== Sys2Proof/Machine/DramCmd.lean ====
section
/-! DEFINITION. The commands of the DRAM controller (15_dram.md R400 to R420). What the JEDEC standard fixes and the spec does
not state, when a command is legal under the timing set and when an interval has passed in DRAM clocks, the environment
supplies. -/

namespace Sys2Proof.Machine

/-- One line request arrives (R402 to R405). -/
def dramArrive (port inst addr len : Nat) (data : Option (List Byte)) (s : State) : State :=
  let q := s.dmc.seq
  let r : DReq := { seq := q, port := port, inst := inst, addr := addr, len := len, data := data, at_ := s.clk.fab,
                    issued := false, held := false }
  let s := cnt (dmcPort port 0) { s with dmc := { s.dmc with seq := q + 1 } }
  let s := if data.isNone then
      { s with dmc := { s.dmc with
          outr := mput s.dmc.outr port (mget s.dmc.outr port [] ++ [{ seq := q, known := false, sts := 0, bytes := [] }]) [] } }
    else s
  if dramRegion s r then
    let (sc, _, _) := dramMap s addr
    let s := scEnter sc r s
    if chLevel s (sc / 2) = 2 then chChange (sc / 2) 0 s else s
  else
    let s := ercReport 0x89 1 2 (masterOf r) addr (some inst) (cnt (0x3E01C00 + 4 * inst) s)
    if data.isNone then dramRead port q 2 (List.replicate len 0) s else s

/-- DRAM_REQUEST: a requester's transfer arrives as line requests in ascending address order (R402 to R405): a read of `len`
bytes, or a write of the bytes given. -/
def execDramRequest (port : Fin 10) (inst : Fin 32) (addr : Nat) (len : Fin 65536) (data : Option (List Byte)) (s : State) :
    Result :=
  .next (if running s 27 0 && decide (0 < chCount s) then
    let i := if port.val = 9 then 0 else inst.val
    let n := match data with
      | some bs => bs.length
      | none => len.val
    (dramLines (n / 64 + 2) addr n).foldl (fun s (l : Nat × Nat) =>
      dramArrive port.val i l.1 l.2 (data.map (fun bs => (bs.drop (l.1 - addr)).take l.2)) s) s
  else s)

/-- The deferral of refreshes: 4 intervals (R409). -/
def refreshForced (d : DSub) : Option Nat := (d.refDue.find? (fun p => decide (4 < p.2))).map (·.1)

/-- Issue one refresh of a rank: each of its banks is closed and its count falls by RAAIMT, as JESD79-5 has it
(PRESUMED). -/
def dramRefresh (sc rank : Nat) (s : State) : State :=
  let d := dsub s sc
  let s := setDsub sc { d with
    refDue := mmod d.refDue rank 0 (· - 1),
    banks := d.banks.filter (fun p => p.1 / 32 != rank),
    raa := (d.raa.map (fun (p : Nat × Nat) => if p.1 / 32 = rank then (p.1, p.2 - s.dmc.imt) else p)).filter
      (fun p => p.2 != 0) } s
  dramHist sc none s

/-- Issue a same-bank RFM (R410). -/
def dramRfm (sc key : Nat) (s : State) : State :=
  let d := dsub s sc
  let s := setDsub sc { d with banks := mdel d.banks key, raa := mmod d.raa key 0 (· - s.dmc.imt) } s
  dramHist sc none (cnt (dmcCnt sc 8) s)

/-- Issue the next command of a request (R406, R407): close another row, open its own, or its column command. `bad`: the read
of a write of less than a line fails, and the line gets the reserved syndrome (R415). -/
def dramStep (sc : Nat) (r : DReq) (bad : Bool) (s : State) : State :=
  let (_, key, row) := dramMap s r.addr
  let d := dsub s sc
  match mfind d.banks key with
  | none => dramHist sc none (dramAct sc r s)
  | some b =>
    if b.row != row then dramHist sc none (setDsub sc { d with banks := mdel d.banks key } s)
    else
      let banks := if rf s 0x3E08040 15 0 = 0 then mdel d.banks key else mins d.banks key ⟨row, s.clk.fab⟩
      let s := if r.data.isSome then
          let s := setDsub sc { d with banks := banks, wq := d.wq.filter (fun x => x.seq != r.seq) } s
          let s := if bad && decide (r.len < 64) then
              { s with dmc := { s.dmc with bad := mput s.dmc.bad (r.addr / 64) true false } }
            else s
          wqFill sc s
        else
          let q := d.q.map (fun (x : DReq) => if x.seq = r.seq then { x with issued := true } else x)
          setDsub sc { d with banks := banks, q := q } s
      dramHist sc (some r) s

/-- DRAM_COMMAND_ISSUE: one DMC cycle of a subchannel (R407). `late` names the requests whose next command the active timing set
does not yet allow. -/
def execDramCommandIssue (sc : Fin 16) (late : List Nat) (bad : Bool) (s : State) : Result :=
  .next (
    let k := sc.val
    let d := dsub s k
    if !active s 27 0 || !scPresent s k || d.alert != 0 || d.slice || scFailed s k || chLevel s (k / 2) == 2 then s
    else match refreshForced d, rfmBank s d with
      | some r, _ => dramRefresh k r s
      | none, some b => dramRfm k b s
      | none, none =>
        let d := { d with wdrain := if 48 ≤ d.wq.length then true else if d.wq.length ≤ 16 then false else d.wdrain }
        let s := setDsub k d s
        let c := dramCands s d late
        match (d.refDue.find? (fun p => decide (0 < p.2))), c.any (fun r => urgOf s r == 3) with
        | some r, false => dramRefresh k r.1 s
        | _, _ => match dramChoose s d c with
          | some r => dramStep k r bad s
          | none => s)

/-- DRAM_REQUEST_COMPLETE: a read of a subchannel is answered (R408): one that was issued, one its write queue serves, or any of
a subchannel that FAILED. `err`: 0 clean; 1 corrected (R414); 2 uncorrectable once and clean when read again; 3 uncorrectable three
times (R415). -/
def execDramRequestComplete (sc : Fin 16) (seq : Nat) (err : Fin 4) (s : State) : Result :=
  .next (
    let k := sc.val
    let d := dsub s k
    match d.q.find? (fun r => r.seq == seq && r.data.isNone) with
    | none => s
    | some r =>
      let served := d.wq.any (sameLine r)
      let bad := mget s.dmc.bad (r.addr / 64) false
      if !active s 27 0 || (!r.issued && !served && !scFailed s k) ||
          d.q.any (fun x => sameLine r x && decide (x.seq < r.seq)) || d.rwin.any (fun x => x.seq == seq) then s
      else
        let s := setDsub k { d with q := d.q.filter (fun x => x.seq != seq) } s
        let bs := memRdN s.dram 0 r.addr r.len
        let s := if scFailed s k then dramRead r.port seq 1 bs (cnt (dmcPort r.port 2) (cnt (dmcCnt k 3) s))
          else if bad || (err == 3 && !served) then dramRead r.port seq 1 bs (dramPoison k r s)
          else
            let s := if err == 1 && !served then ercReport 0x87 1 0 k r.addr (some r.inst) (cnt (dmcCnt k 2) s) else s
            dramRead r.port seq 0 bs s
        wqFill k (dramLate r (cnt (dmcCnt k 0) s)))

/-- REFRESH_DUE: a rank's refresh interval has passed (R409); while a request with URG 3 is pending the refresh is postponed. -/
def execRefreshDue (sc : Fin 16) (rank : Fin 2) (s : State) : Result :=
  .next (
    let k := sc.val
    if !active s 27 0 || !scPresent s k || decide (2 ≤ chLevel s (k / 2)) then s
    else
      let d := dsub s k
      let s := setDsub k { d with refDue := mmod d.refDue rank.val 0 (· + 1) } s
      if (d.q ++ d.wq).any (fun r => urgOf s r == 3) then cnt (dmcCnt k 9) s else s)

/-- MR4_POLL: MR4 of a rank reports whether its refresh rate is above 1×, which halves tREFI (R409). -/
def execMr4Poll (sc : Fin 16) (rank : Fin 2) (fast : Bool) (s : State) : Result :=
  .next (
    let d := dsub s sc.val
    if active s 27 0 && scPresent s sc.val && decide (chLevel s (sc.val / 2) < 2) then
      setDsub sc.val { d with half := mput d.half rank.val fast false } s
    else s)

/-- The refresh window of a subchannel in nanoseconds: 32 ms, or 16 ms while tREFI is halved (R411). -/
def rhWindow (d : DSub) : Nat := if d.half.isEmpty then 32000000 else 16000000

/-- RH_WINDOW_END: the trackers' counts are cleared, and the throttles whose time has come end (R411). -/
def execRhWindowEnd (sc : Fin 16) (s : State) : Result :=
  .next (
    let d := dsub s sc.val
    if active s 27 0 && scPresent s sc.val && decide (d.winAt + rhWindow d ≤ s.clk.fab) then
      setDsub sc.val { d with
        winAt := s.clk.fab, trk := [],
        thro := (d.thro.map (fun (p : Nat × (Nat × Nat)) => (p.1, (p.2.1 - 1, p.2.2)))).filter (fun p => p.2.1 != 0) } s
    else s)

/-- PAGE_IDLE_CLOSE: an open bank without a command for IDLE_CLOSE_NS is precharged (R406). -/
def execPageIdleClose (sc : Fin 16) (bank : Fin 64) (s : State) : Result :=
  .next (
    let d := dsub s sc.val
    match mfind d.banks bank.val with
    | some b =>
      if active s 27 0 && d.alert == 0 && decide (b.last + rf s 0x3E08040 15 0 ≤ s.clk.fab) then
        setDsub sc.val { d with banks := mdel d.banks bank.val } s
      else s
    | none => s)

/-- ZQ_CAL: calibration in a refresh shadow; a drift above one step moves a device's write-DQS delay by one step (R416).
`drift`: none, or its direction. -/
def execZqCal (sc : Fin 16) (rank : Fin 2) (dev : Fin 32) (drift : Option Bool) (s : State) : Result :=
  .next (
    let d := dsub s sc.val
    if active s 27 0 && scPresent s sc.val && decide (chLevel s (sc.val / 2) < 2) then match drift with
      | none => s
      | some up => setDsub sc.val { d with dqs := mmod d.dqs (rank.val * 32 + dev.val) 0 (· + if up then 1 else -1) } s
    else s)

/-- A slice of the present retraining may begin: it is due for `defer` more nanoseconds, and the gap since the last slice is
over (R417, R418). -/
def sliceDue (s : State) (sc defer : Nat) : Bool :=
  let d := dsub s sc
  active s 27 0 && scPresent s sc && decide (chLevel s (sc / 2) < 2) && !d.slice && d.alert == 0 && decide (d.slices < 256) &&
    decide (d.cenAt + rf s 0x3E0804C 31 16 * 1000000 + defer ≤ s.clk.fab) &&
    (d.sliceEnd == 0 || decide (d.sliceEnd + rf s 0x3E0804C 8 4 * 1000 ≤ s.clk.fab))

/-- CENTRING_SLICE: a slice begins on a subchannel with no pending request whose data bus was used for at most half of the last
16 µs (R417); `use` is that use in percent. -/
def execCentringSlice (sc : Fin 16) (use : Fin 101) (s : State) : Result :=
  .next (
    let d := dsub s sc.val
    if sliceDue s sc.val 0 && d.q.isEmpty && d.wq.isEmpty && decide (use.val ≤ 50) then
      cnt (dmcCnt sc.val 6) (setDsub sc.val { d with slice := true, slices := d.slices + 1 } s)
    else s)

/-- FORCED_SLICE: a retraining due for DEFER_MS runs its slices whether or not requests are pending (R418). -/
def execForcedSlice (sc : Fin 16) (s : State) : Result :=
  .next (
    let d := dsub s sc.val
    if sliceDue s sc.val (rf s 0x3E0804C 15 10 * 1000000) then
      cnt (dmcCnt sc.val 7) (cnt (dmcCnt sc.val 6) (setDsub sc.val { d with slice := true, slices := d.slices + 1 } s))
    else s)

/-- CENTRING_SLICE_END: the slice ends and the held requests are served first (R417); `last` ends the retraining, as its 256th
slice does, and the next is due RETRAIN_MS after this one was. -/
def execCentringSliceEnd (sc : Fin 16) (last : Bool) (s : State) : Result :=
  .next (
    let d := dsub s sc.val
    if d.slice then
      let fin := last || decide (256 ≤ d.slices)
      scUnhold sc.val (setDsub sc.val { d with
        slice := false, sliceEnd := s.clk.fab, slices := if fin then 0 else d.slices,
        cenAt := if fin then d.cenAt + rf s 0x3E0804C 31 16 * 1000000 else d.cenAt } s)
    else s)

/-- CA_PARITY_ALERT: ALERT_n is sampled low: no further command is issued and the reads of the window's commands are marked for
discard (R412). `n` is how many commands lie in the window. The third alert of a sequence retrains CA (R413). -/
def execCaParityAlert (sc : Fin 16) (n : Fin 33) (s : State) : Result :=
  .next (
    let d := dsub s sc.val
    if active s 27 0 && scPresent s sc.val && decide (chLevel s (sc.val / 2) ≠ 2) && d.alert != 2 && !scFailed s sc.val then
      let w := ((d.hist.take (min n.val (rf s 0x3E08048 4 0))).filterMap id).reverse
      let w := w.filter (fun r => !d.rwin.any (fun x => x.seq == r.seq))
      let third := decide (2 ≤ d.alerts)
      let s := setDsub sc.val { d with alert := if third then 2 else 1, alerts := d.alerts + 1, rwin := d.rwin ++ w, hist := [] } s
      if third then ercReport 0x88 2 1 sc.val 0 none (cnt (dmcCnt sc.val 5) s) else s
    else s)

/-- The requests of a window are issued again in their original order: the rows they open are open, and the reads still
unanswered are issued (R412). -/
def dramReplay (sc : Nat) (s : State) : State :=
  let d := dsub s sc
  let banks := d.rwin.foldl (fun b r => mins b (dramMap s r.addr).2.1 ⟨(dramMap s r.addr).2.2, s.clk.fab⟩) []
  setDsub sc { d with banks := banks, rwin := [], alert := 0, alerts := 0, hist := d.rwin.reverse.map some } s

/-- CA_REPLAY: after ALERT_n is high again every bank is closed and the window's requests are issued again (R412). -/
def execCaReplay (sc : Fin 16) (s : State) : Result :=
  .next (
    if (dsub s sc.val).alert = 1 && active s 27 0 then
      ercReport 0x88 1 0 sc.val 0 none (cnt (dmcCnt sc.val 4) (dramReplay sc.val s))
    else s)

/-- CA_RETRAIN_DONE: the retraining after a third alert ends: the window is replayed and held requests go on, or the subchannel
is FAILED: every write to it is discarded (R413). -/
def execCaRetrainDone (sc : Fin 16) (ok : Bool) (s : State) : Result :=
  .next (
    let k := sc.val
    if (dsub s k).alert = 2 && active s 27 0 then
      if ok then scUnhold k (dramReplay k s)
      else
        let s := rsetF s (chSts (k / 2)) (28 + k % 2) (28 + k % 2) 1
        let d := dsub s k
        let s := setDsub k { d with alert := 0, alerts := 0, rwin := [], wq := [] } s
        ercReport 0x88 3 3 k 0 none (scUnhold k s)
    else s)

/-- DMC_FREQ: FREQ in DMC_PWRCMD changes a channel between its operating speed and 3200 MT/s (R419). A command that does not apply
at the present level is rejected, as one during a change is (R422, DEDUCED). -/
def execDmcFreq (r : Req) (ch : Fin 8) (s : State) : Result :=
  .next (asked r (0x3E03000 + 4 * ch.val) (fun s =>
    if !rb s (chSts ch.val) 30 then cfgReject 27 0 s
    else match chLevel s ch.val with
      | 0 => chChange ch.val 1 s
      | 1 => chChange ch.val 0 s
      | _ => cfgReject 27 0 s) s)

/-- DMC_ENTER2: accepted only at the operating speed (R420). -/
def execDmcEnter2 (r : Req) (ch : Fin 8) (s : State) : Result :=
  .next (asked r (0x3E03000 + 4 * ch.val) (fun s =>
    if rb s (chSts ch.val) 30 && chLevel s ch.val == 0 then chChange ch.val 2 s else cfgReject 27 0 s) s)

/-- DMC_EXIT (R420): a channel that is not stopped has nothing to leave. -/
def execDmcExit (r : Req) (ch : Fin 8) (s : State) : Result :=
  .next (asked r (0x3E03000 + 4 * ch.val) (fun s =>
    if chLevel s ch.val = 2 then chChange ch.val 0 s
    else if chLevel s ch.val = 3 then cfgReject 27 0 s else s) s)

/-- The timing words of a set, and for set 0 SPEED, take their shadow values when a channel enters the set (R422). -/
def timCommit (ch set : Nat) (s : State) : State :=
  let s := (List.range 8).foldl (fun s k => hCommit (0x3E09000 + 0x100 * ch + 0x40 * set + 4 * k) s) s
  if set = 0 then hCommit (0x3E00100 + 4 * ch) s else s

/-- LEVEL_CHANGE_DONE: a channel's level change completes once its pending requests are performed (R419, R420); its set's timing
words commit, and held requests are served first. A request that arrived while the clock was to stop starts it again. -/
def execLevelChangeDone (ch : Fin 8) (s : State) : Result :=
  .next (
    let c := ch.val
    let busy := ((dsub s (2 * c)).q ++ (dsub s (2 * c)).wq ++ (dsub s (2 * c + 1)).q ++ (dsub s (2 * c + 1)).wq)
    match mfind s.dmc.lvl c with
    | none => s
    | some t =>
      if !active s 27 0 || !busy.isEmpty then s
      else
        let s := { s with dmc := { s.dmc with lvl := mdel s.dmc.lvl c } }
        let s := rsetF s (chSts c) 25 24 t
        let close (k : Nat) (s : State) : State := setDsub k { dsub s k with banks := [], hist := [] } s
        let s := close (2 * c + 1) (close (2 * c) s)
        if t = 2 then
          if (dsub s (2 * c)).hold.isEmpty && (dsub s (2 * c + 1)).hold.isEmpty then s else chChange c 0 s
        else
          let s := timCommit c t (rsetF s (chSts c) 20 20 t)
          scUnhold (2 * c + 1) (scUnhold (2 * c) s))

end Sys2Proof.Machine
end

