-- ==== Sys2Proof/Machine/Crypto.lean ====
section
/-! DEFINITION. The cryptographic functions the manual names by their standards (PRESUMED from those standards): SHA-256
(FIPS 180-4), AES and GCM (FIPS 197, SP 800-38D), LMS and HSS (RFC 8554, SP 800-208), as 02_structure_image.md R80 and
10_coprocessors.md R306 use them. -/

namespace Sys2Proof.Machine

/-- The initial hash value of SHA-256. -/
def shaH0 : List Word := [
   0x6A09E667, 0xBB67AE85, 0x3C6EF372, 0xA54FF53A, 0x510E527F, 0x9B05688C, 0x1F83D9AB, 0x5BE0CD19]

/-- The round constants of SHA-256. -/
def shaK : List Word := [
   0x428A2F98, 0x71374491, 0xB5C0FBCF, 0xE9B5DBA5, 0x3956C25B, 0x59F111F1, 0x923F82A4, 0xAB1C5ED5,
   0xD807AA98, 0x12835B01, 0x243185BE, 0x550C7DC3, 0x72BE5D74, 0x80DEB1FE, 0x9BDC06A7, 0xC19BF174,
   0xE49B69C1, 0xEFBE4786, 0x0FC19DC6, 0x240CA1CC, 0x2DE92C6F, 0x4A7484AA, 0x5CB0A9DC, 0x76F988DA,
   0x983E5152, 0xA831C66D, 0xB00327C8, 0xBF597FC7, 0xC6E00BF3, 0xD5A79147, 0x06CA6351, 0x14292967] ++ [
   0x27B70A85, 0x2E1B2138, 0x4D2C6DFC, 0x53380D13, 0x650A7354, 0x766A0ABB, 0x81C2C92E, 0x92722C85,
   0xA2BFE8A1, 0xA81A664B, 0xC24B8B70, 0xC76C51A3, 0xD192E819, 0xD6990624, 0xF40E3585, 0x106AA070,
   0x19A4C116, 0x1E376C08, 0x2748774C, 0x34B0BCB5, 0x391C0CB3, 0x4ED8AA4A, 0x5B9CCA4F, 0x682E6FF3,
   0x748F82EE, 0x78A5636F, 0x84C87814, 0x8CC70208, 0x90BEFFFA, 0xA4506CEB, 0xBEF9A3F7, 0xC67178F2]

/-- Rotate right. -/
def rotr (w : Word) (n : Nat) : Word := w.rotateRight n

/-- Big-endian words of bytes. -/
def beWords : Nat → List Byte → List Word
  | 0, _ => []
  | n + 1, bs => w32 (beVal (bs.take 4)) :: beWords n (bs.drop 4)

/-- The message schedule, newest word first, from 16 words also newest first. -/
def shaSched : Nat → List Word → List Word
  | 0, w => w
  | n + 1, w =>
    let g := fun k => (w[k]?).getD 0
    let s0 := rotr (g 14) 7 ^^^ rotr (g 14) 18 ^^^ (g 14 >>> 3)
    let s1 := rotr (g 1) 17 ^^^ rotr (g 1) 19 ^^^ (g 1 >>> 10)
    shaSched n ((g 15 + s0 + g 6 + s1) :: w)

/-- One round on the eight working words. -/
def shaRound (h : List Word) (kw : Word × Word) : List Word :=
  match h with
  | [a, b, c, d, e, f, g, hh] =>
    let t1 := hh + (rotr e 6 ^^^ rotr e 11 ^^^ rotr e 25) + ((e &&& f) ^^^ (~~~e &&& g)) + kw.1 + kw.2
    let t2 := (rotr a 2 ^^^ rotr a 13 ^^^ rotr a 22) + ((a &&& b) ^^^ (a &&& c) ^^^ (b &&& c))
    [t1 + t2, a, b, c, d + t1, e, f, g]
  | _ => h

/-- One 64-byte block. -/
def shaBlock (h : List Word) (b : List Byte) : List Word :=
  let w := (shaSched 48 (beWords 16 b).reverse).reverse
  List.zipWith (· + ·) h ((List.zip shaK w).foldl shaRound h)

/-- `n` blocks. -/
def shaBlocks : Nat → List Word → List Byte → List Word
  | 0, h, _ => h
  | n + 1, h, bs => shaBlocks n (shaBlock h (bs.take 64)) (bs.drop 64)

/-- The SHA-256 digest of bytes, as 32 bytes. -/
def sha256 (m : List Byte) : List Byte :=
  let z := (119 - m.length % 64) % 64
  let p := m ++ [0x80] ++ List.replicate z 0 ++ beBytes 8 (8 * m.length)
  ((shaBlocks (p.length / 64) shaH0 p).map (fun w => beBytes 4 w.toNat)).flatten

/-- Multiplication by x in GF(2^8) with the AES polynomial. -/
def gfX (a : Nat) : Nat := if 128 ≤ a then (a * 2 % 256) ^^^ 0x1B else a * 2

/-- Multiplication in GF(2^8), over `n` bits of `b`. -/
def gfMul : Nat → Nat → Nat → Nat
  | 0, _, _ => 0
  | n + 1, a, b => (if b % 2 = 1 then a else 0) ^^^ gfMul n (gfX a) (b / 2)

/-- Powers in GF(2^8). -/
def gfPow (a : Nat) : Nat → Nat
  | 0 => 1
  | n + 1 => gfMul 8 (gfPow a n) a

/-- Rotate a byte left. -/
def rol8 (b n : Nat) : Nat := (b * 2 ^ n % 256) ||| (b / 2 ^ (8 - n))

/-- The AES S-box. -/
def aesSub (a : Nat) : Nat :=
  let i := gfPow a 254
  i ^^^ rol8 i 1 ^^^ rol8 i 2 ^^^ rol8 i 3 ^^^ rol8 i 4 ^^^ 0x63

/-- The next word of the key schedule: `i` is its index and `nk` the key's length in words; the schedule is kept newest
word first. -/
def aesKeyWord (nk i rcon : Nat) (w : List (List Nat)) : List Nat :=
  let t := (w[0]?).getD []
  let t := if i % nk = 0 then
      let r := (t.drop 1 ++ t.take 1).map aesSub
      (r.take 1).map (· ^^^ rcon) ++ r.drop 1
    else if 6 < nk && i % nk = 4 then t.map aesSub else t
  List.zipWith (· ^^^ ·) ((w[nk - 1]?).getD []) t

/-- Extend the key schedule by `n` words. -/
def aesExpand (nk : Nat) : Nat → Nat → Nat → List (List Nat) → List (List Nat)
  | 0, _, _, w => w
  | n + 1, i, rcon, w => aesExpand nk n (i + 1) (if i % nk = 0 then gfX rcon else rcon) (aesKeyWord nk i rcon w :: w)

/-- Split into words of four. -/
def chunk4 : Nat → List Nat → List (List Nat)
  | 0, _ => []
  | n + 1, l => l.take 4 :: chunk4 n (l.drop 4)

/-- Split into blocks of sixteen. -/
def chunk16 {α : Type} : Nat → List α → List (List α)
  | 0, _ => []
  | n + 1, l => l.take 16 :: chunk16 n (l.drop 16)

/-- ShiftRows on sixteen bytes held by column. -/
def aesShift (s : List Nat) : List Nat := (List.range 16).map (fun k => (s[(k + 4 * (k % 4)) % 16]?).getD 0)

/-- MixColumns of one column. -/
def aesMix (col : List Nat) : List Nat :=
  (List.range 4).map (fun k =>
    let g := fun j => (col[(k + j) % 4]?).getD 0
    gfX (g 0) ^^^ gfX (g 1) ^^^ g 1 ^^^ g 2 ^^^ g 3)

/-- AES encryption of one block with a key of 16 or 32 bytes. -/
def aesBlock (key blk : List Nat) : List Nat :=
  let nk := key.length / 4
  let rounds := nk + 6
  let ws := (aesExpand nk (4 * (rounds + 1) - nk) nk 1 (chunk4 nk key).reverse).reverse
  let rk := chunk16 (rounds + 1) ws.flatten
  let add := fun (s k : List Nat) => List.zipWith (· ^^^ ·) s k
  let s0 := add blk ((rk[0]?).getD [])
  let s := ((rk.drop 1).take (rounds - 1)).foldl (fun s k =>
    add ((chunk4 4 (aesShift (s.map aesSub))).map aesMix).flatten k) s0
  add (aesShift (s.map aesSub)) ((rk[rounds]?).getD [])

/-- A number from bytes held as numbers, most significant first. -/
def natBE (l : List Nat) : Nat := l.foldl (fun a b => a * 256 + b) 0

/-- Multiplication in GF(2^128) as GCM defines it, over the bits of `x` from the most significant. -/
def ghMul : Nat → Nat → Nat → Nat → Nat
  | 0, _, _, z => z
  | n + 1, x, v, z =>
    ghMul n x (if v % 2 = 1 then (v / 2) ^^^ (0xE1 * 2 ^ 120) else v / 2) (if x / 2 ^ n % 2 = 1 then z ^^^ v else z)

/-- Pad to a multiple of sixteen. -/
def pad16 (l : List Nat) : List Nat := l ++ List.replicate ((16 - l.length % 16) % 16) 0

/-- GHASH of the additional data and the ciphertext. -/
def ghash (h : Nat) (aad ct : List Nat) : Nat :=
  let d := pad16 aad ++ pad16 ct
  let y := (chunk16 (d.length / 16) d).foldl (fun y b => ghMul 128 (y ^^^ natBE b) h 0) 0
  ghMul 128 (y ^^^ (8 * aad.length * 2 ^ 64 + 8 * ct.length)) h 0

/-- The bytes of a 128-bit number. -/
def bytes16 (v : Nat) : List Nat := (List.range 16).map (fun k => v / 256 ^ (15 - k) % 256)

/-- Counter mode from counter block `c`. -/
def gctr (key : List Nat) : Nat → Nat → List Nat → List Nat
  | 0, _, _ => []
  | n + 1, c, l =>
    List.zipWith (· ^^^ ·) (l.take 16) (aesBlock key (bytes16 c)) ++
      gctr key n (c / 2 ^ 32 * 2 ^ 32 + (c + 1) % 2 ^ 32) (l.drop 16)

/-- AES-GCM with a 96-bit IV: the text transformed, and the tag over the additional data and `ct`. -/
def gcmText (key : List Nat) (iv : Nat) (text : List Nat) : List Nat :=
  gctr key ((text.length + 15) / 16) (iv * 2 ^ 32 + 2) text

/-- The tag of AES-GCM, as a 128-bit number. -/
def gcmTag (key : List Nat) (iv : Nat) (aad ct : List Nat) : Nat :=
  ghash (natBE (aesBlock key (bytes16 0))) aad ct ^^^ natBE (aesBlock key (bytes16 (iv * 2 ^ 32 + 1)))

/-- Height of an LMS type of R80, and none for any other. -/
def lmsHeight (ty : Nat) : Option Nat :=
  match ty with
  | 5 => some 5
  | 6 => some 10
  | 7 => some 15
  | 8 => some 20
  | 9 => some 25
  | _ => none

/-- The hash chain of LM-OTS from step `j`, `n` steps. -/
def otsChain (pre : List Byte) : Nat → Nat → List Byte → List Byte
  | 0, _, t => t
  | n + 1, j, t => otsChain pre n (j + 1) (sha256 (pre ++ beBytes 1 j ++ t))

/-- The 34 values of an LM-OTS signature brought to the ends of their chains. -/
def otsEnds (i q : List Byte) (digits : List Nat) (y : List Byte) : List Byte :=
  ((List.range 34).map (fun k =>
    let a := (digits[k]?).getD 0
    otsChain (i ++ q ++ beBytes 2 k) (255 - a) a ((y.drop (32 * k)).take 32))).flatten

/-- The Merkle path of LMS, from node `r` up. -/
def lmsPath (i : List Byte) : Nat → Nat → List Byte → List Byte → List Byte
  | 0, _, t, _ => t
  | n + 1, r, t, path =>
    let p := path.take 32
    let t' := sha256 (i ++ beBytes 4 (r / 2) ++ [0x83, 0x83] ++ (if r % 2 = 1 then p ++ t else t ++ p))
    lmsPath i n (r / 2) t' (path.drop 32)

/-- Bytes an LMS signature of height `h` with LMOTS_SHA256_N32_W8 takes. -/
def lmsSigLen (h : Nat) : Nat := 1132 + 32 * h

/-- Verify one LMS signature: `pub` the 56-byte public key, `sg` the signature, `msg` the message (R80). -/
def lmsVerify (pub sg msg : List Byte) : Bool :=
  let ty := beVal (pub.take 4)
  match lmsHeight ty with
  | none => false
  | some h =>
    if pub.length != 56 || sg.length != lmsSigLen h || beVal ((pub.drop 4).take 4) != 4 || beVal ((sg.drop 4).take 4) != 4 ||
        beVal ((sg.drop 1128).take 4) != ty then false
    else
      let i := (pub.drop 8).take 16
      let q := sg.take 4
      let qn := beVal q
      if 2 ^ h ≤ qn then false
      else
        let c := (sg.drop 8).take 32
        let d := (sha256 (i ++ q ++ [0x81, 0x81] ++ c ++ msg)).map (·.toNat)
        let ck := (d.map (fun b => 255 - b)).sum
        let z := otsEnds i q (d ++ [ck / 256, ck % 256]) ((sg.drop 40).take 1088)
        let kc := sha256 (i ++ q ++ [0x80, 0x80] ++ z)
        let leaf := sha256 (i ++ beBytes 4 (2 ^ h + qn) ++ [0x82, 0x82] ++ kc)
        lmsPath i h (2 ^ h + qn) leaf (sg.drop 1132) == pub.drop 24

/-- The height a signature's own type code names. -/
def lmsSigHeight (sg : List Byte) : Option Nat := lmsHeight (beVal ((sg.drop 1128).take 4))

/-- Verify an HSS signature of one or two levels (R80): `pub` the 60-byte public key. -/
def hssVerify (pub sg msg : List Byte) : Bool :=
  let l := beVal (pub.take 4)
  let n := beVal (sg.take 4)
  if pub.length != 60 || n + 1 != l then false
  else if l = 1 then lmsVerify (pub.drop 4) (sg.drop 4) msg
  else if l = 2 then
    let r := sg.drop 4
    match lmsSigHeight r with
    | none => false
    | some h =>
      let s0 := r.take (lmsSigLen h)
      let p1 := (r.drop (lmsSigLen h)).take 56
      lmsVerify (pub.drop 4) s0 p1 && lmsVerify p1 (r.drop (lmsSigLen h + 56)) msg
  else false

end Sys2Proof.Machine
end

