-- ==== Sys2Proof/Machine/Macsec.lean ====
section
/-! DEFINITION. MACsec (03_ports.md R102 to R107): protecting and validating frames, with the frame format of IEEE
802.1AE-2018 (PRESUMED), and the commands of MSC_SACMD. -/

namespace Sys2Proof.Machine

/-- A fuse bit (17 R446). -/
def fuseBit (s : State) (k : Nat) : Bool := rb s (0x201000 + 4 * (k / 32)) (k % 32)

/-- MACsec is unavailable: MACSEC_DIS, or the RETIRED state (17 R464). -/
def macsecOff (s : State) : Bool := fuseBit s 2053 || decide (rf s 0x201400 17 16 = 3)

/-- MSC_SCCFG[m][s]; SCI and REPLAY_WINDOW follow it (R122). -/
def scCfg (m c : Nat) : Nat := 0xC08000 + 0x400 * m + 0x10 * c

/-- The key of an association. -/
def saKey (m c an : Nat) : Nat := 256 * m + 4 * c + an

/-- An association whose key is valid. -/
def saOf (s : State) (m c an : Nat) : Option Sa := mfind s.port.sa (saKey m c an)

/-- Install or zero an association's key memory (R104). -/
def setSa (m c an : Nat) (x : Option Sa) (s : State) : State :=
  { s with port := { s.port with sa := mset s.port.sa (saKey m c an) x } }

/-- CIPHER of a channel is an XPN suite (R102, R122). -/
def scXpn (s : State) (m c : Nat) : Bool := decide (2 ≤ rf s (scCfg m c) 23 21)

/-- SCI of a channel. -/
def scSci (s : State) (m c : Nat) : Nat := (rv s (scCfg m c + 8)).toNat * 2 ^ 32 + (rv s (scCfg m c + 4)).toNat

/-- A number from words, low word first. -/
def lowFirst (ws : List Word) : Nat := ws.foldr (fun w a => a * 2 ^ 32 + w.toNat) 0

/-- The AES key of an association as bytes. -/
def saAes (s : State) (m c : Nat) (x : Sa) : List Nat :=
  let n := if rf s (scCfg m c) 23 21 % 2 = 0 then 4 else 8
  (beBytes (4 * n) (lowFirst (x.key.take n))).map (·.toNat)

/-- The IV of a frame (IEEE 802.1AE-2018): SCI and PN, or for XPN the SSCI and the 64-bit PN under the salt. -/
def saIv (s : State) (m c : Nat) (x : Sa) (pn : Nat) : Nat :=
  if scXpn s m c then (x.ssci.toNat * 2 ^ 64 + pn % 2 ^ 64) ^^^ (lowFirst x.salt % 2 ^ 96)
  else scSci s m c * 2 ^ 32 + pn % 2 ^ 32

/-- CONF_OFFSET of a channel in bytes. -/
def confOff (s : State) (m c : Nat) : Nat := match rf s (scCfg m c) 17 16 with
  | 1 => 30
  | 2 => 50
  | _ => 0

/-- Add to a statistic (R107): the key of a channel, or 4,096 plus the MAC. The spec names no order of its own but that of
Clause 10 of IEEE 802.1AE-2018 (PRESUMED as): 0 InPktsUntagged, 1 InPktsNoTag, 2 InPktsBadTag, 3 InPktsNoSCI, 4
InPktsOK, 5 InPktsUnchecked, 6 InPktsDelayed, 7 InPktsLate, 8 InPktsInvalid, 9 InPktsNotValid, 10 InPktsUnusedSA, 11
InPktsNotUsingSA, 12 InOctetsValidated, 13 InOctetsDecrypted, 14 OutPktsUntagged, 15 OutPktsTooLong, 16 OutPktsProtected,
17 OutPktsEncrypted, 18 OutOctetsProtected, 19 OutOctetsEncrypted. -/
def statAdd (key k n : Nat) (s : State) : State :=
  let l := mget s.port.stats key (List.replicate 32 0)
  let l := (List.range 32).map (fun j => let w := (l[j]?).getD 0; if j = k then w32 (satAdd 32 w.toNat n) else w)
  { s with port := { s.port with stats := mins s.port.stats key l } }

/-- Bytes as numbers. -/
def toNats (l : List Byte) : List Nat := l.map (·.toNat)

/-- The text transformed and its tag: `off` bytes stay in clear; without confidentiality all do. -/
def gcmBytes (key : List Nat) (iv : Nat) (text : List Byte) : List Byte := (gcmText key iv (toNats text)).map by8

/-- Protect a frame (without FCS) under association `an` of a channel (IEEE 802.1AE-2018): SecTAG with explicit SCI, the
secure data, the ICV. -/
def macProtect (s : State) (m c an : Nat) (x : Sa) (fr : List Byte) : List Byte :=
  let conf := rb s (scCfg m c) 20
  let data := fr.drop 12
  let tci := 0x20 + (if conf then 0x0C else 0) + an
  let sl := if data.length < 48 then data.length else 0
  let tag := beBytes 2 0x88E5 ++ [by8 tci, by8 sl] ++ beBytes 4 x.pn ++ beBytes 8 (scSci s m c)
  let key := saAes s m c x
  let iv := saIv s m c x x.pn
  let off := if conf then min (confOff s m c) data.length else data.length
  let ct := gcmBytes key iv (data.drop off)
  let aad := toNats (fr.take 12 ++ tag ++ data.take off)
  fr.take 12 ++ tag ++ data.take off ++ ct ++ beBytes 16 (gcmTag key iv aad (toNats ct))

/-- The outer VLAN ID of a frame, or none. -/
def outerVid (fr : List Byte) : Option Nat :=
  if be16 fr 12 = 0x8100 || be16 fr 12 = 0x88A8 then some (be16 fr 14 % 4096) else none

/-- The SecY a frame to be transmitted maps to: the first valid match in ascending order (R103). -/
def txSecy (s : State) (m : Nat) (fr : List Byte) : Option Nat :=
  let a (e : Nat) := 0xC18000 + 0x20 * m + 4 * e
  ((List.range 8).find? (fun e => rb s (a e) 31 && (match outerVid fr with
    | none => rb s (a e) 30
    | some v => !rb s (a e) 30 && decide (rf s (a e) 11 0 = v)))).map (fun e => rf s (a e) 26 24)

/-- The transmit channel of a SecY (R102). -/
def txChan (s : State) (m y : Nat) : Option Nat :=
  (List.range 64).find? (fun c => rb s (scCfg m c) 31 && rb s (scCfg m c) 30 && decide (rf s (scCfg m c) 26 24 = y))

/-- A switch of transmit association takes effect at a frame boundary (R106). -/
def txBoundary (m : Nat) (s : State) : State :=
  foldS (mkeys (s.port.txNext.filter (fun e => e.1 / 64 == m))) (fun k s =>
    { s with port := { s.port with txAn := mput s.port.txAn k (mget s.port.txNext k 0) 0, txNext := mdel s.port.txNext k } }) s

/-- What MACsec makes of a frame to be transmitted by MAC `m`: none where it is discarded (R103, R106). -/
def macTx (m : Nat) (fr : List Byte) (s : State) : Option (List Byte) × State :=
  let s := txBoundary m s
  match txSecy s m fr with
  | none =>
    if rf s (0xC18800 + 4 * m) 1 0 = 1 then (none, statAdd (4096 + m) 14 1 s) else (some fr, s)
  | some y => match txChan s m y with
    | none => (none, statAdd (4096 + m) 14 1 s)
    | some c =>
      let k := 64 * m + c
      let an := mget s.port.txAn k 0
      let top := if scXpn s m c then 2 ^ 64 - 1 else 2 ^ 32 - 1
      match saOf s m c an with
      | none => (none, statAdd k 14 1 s)
      | some x =>
        if top < x.pn then (none, statAdd k 14 1 s)
        else
          let out := macProtect s m c an x fr
          let conf := rb s (scCfg m c) 20
          let s := statAdd k (if conf then 19 else 18) (fr.length - 12) (statAdd k (if conf then 17 else 16) 1 s)
          let s := setSa m c an (some { x with pn := x.pn + 1 }) s
          let q := if scXpn s m c then (x.pn + 1) / 2 ^ 32 else x.pn + 1
          (some out, if (rv s 0xC18900).toNat < q then rsetF s (0xC01200 + 4 * m) an an 1 else s)

/-- The 64-bit packet number of a received XPN frame: that nearest above the lowest acceptable one (IEEE 802.1AE-2018). -/
def xpnOf (low pn : Nat) : Nat :=
  let hi := low / 2 ^ 32
  (if 2 ^ 31 ≤ low % 2 ^ 32 && pn < 2 ^ 31 then hi + 1 else hi) * 2 ^ 32 + pn

/-- A frame of a valid channel and association is checked: whether its ICV is good, and its user data. -/
def macOpen (s : State) (m c : Nat) (x : Sa) (pn hl : Nat) (enc : Bool) (fr : List Byte) : Bool × List Byte :=
  let body := fr.drop (12 + hl)
  let data := body.take (body.length - 16)
  let icv := beVal (body.drop (body.length - 16))
  let off := if enc then min (confOff s m c) data.length else data.length
  let key := saAes s m c x
  let iv := saIv s m c x pn
  let ct := data.drop off
  let aad := toNats (fr.take (12 + hl) ++ data.take off)
  (decide (28 + hl ≤ fr.length) && decide (gcmTag key iv aad (toNats ct) = icv),
    fr.take 12 ++ data.take off ++ gcmBytes key iv ct)

/-- What MACsec makes of a received frame (without FCS) of MAC `m`: none where it is discarded (R103). Which way a frame
goes whose SCI no valid receive channel has is a free choice: the spec names none. -/
def macRx (m : Nat) (fr : List Byte) (s : State) : Option (List Byte) × State :=
  if be16 fr 12 != 0x88E5 then
    if rf s (0xC18800 + 4 * m) 3 2 = 1 then (none, statAdd (4096 + m) 1 1 s) else (some fr, statAdd (4096 + m) 0 1 s)
  else
    let tci := beVal (sliceB fr 14 1)
    let sc := nbits tci 5 5 == 1
    let enc := nbits tci 3 3 == 1
    let an := nbits tci 1 0
    let hl := if sc then 16 else 8
    let pn0 := be32 fr 16
    let valid (c : Nat) : Bool := rb s (scCfg m c) 31 && !rb s (scCfg m c) 30
    let chans := (List.range 64).filter valid
    let sci := if sc then some (beVal (sliceB fr 20 8)) else if nbits tci 6 6 == 1 then some (beVal (sliceB fr 6 6) * 65536 + 1) else none
    let chan := match sci with
      | some v => chans.find? (fun c => scSci s m c == v)
      | none => if chans.length = 1 then chans.head? else none
    match chan with
    | none =>
      let (k, s) := drawPick 2 s
      (if k = 0 then none else some fr, statAdd (4096 + m) 3 1 s)
    | some c =>
      let key := 64 * m + c
      let mode := rf s (scCfg m c) 29 28
      let body := fr.drop (12 + hl)
      let plain := fr.take 12 ++ body.take (body.length - 16)
      let bare (k : Nat) (s : State) : Option (List Byte) × State := (if enc then none else some plain, statAdd key k 1 s)
      match saOf s m c an with
      | none => if mode = 2 then (none, statAdd key 11 1 s) else bare 10 s
      | some x =>
        let pn := if scXpn s m c then xpnOf x.pn pn0 else pn0
        if mode = 0 then bare 5 s
        else
          let o := macOpen s m c x pn hl enc fr
          if !o.1 then (if mode = 2 then (none, statAdd key 9 1 s) else bare 8 s)
          else if rb s (scCfg m c) 27 && decide (pn < x.pn) then (none, statAdd key 7 1 s)
          else
            let low := max x.pn (pn + 1 - (rv s (scCfg m c + 12)).toNat)
            let s := setSa m c an (some { x with pn := low }) s
            (some o.2, statAdd key (if enc then 13 else 12) (o.2.length - 12) (statAdd key 4 1 s))

/-- Clear a requester's staging bank (R104). -/
def mscClear (r : Req) (s : State) : State := foldS (List.range 12) (fun w s => rset s (reqKey r (0xC01000 + 4 * w)) 0) s

/-- A command of MSC_SACMD: its RESULT is returned to the requester (R105, R122). `clr`: it clears the requester's staging
bank, whether it succeeds or fails (R104). -/
def mscCmd (r : Req) (clr : Bool) (op m c an : Nat) (f : State → Nat × State) (s : State) : State :=
  asked r 0xC01040 (fun s =>
    let s := rset s (reqKey r 0xC01040) (w32 (op * 2 ^ 28 + m * 2 ^ 22 + c * 2 ^ 16 + an * 2 ^ 12))
    let own := reqPriv r || (match macPort s m with
      | some p => reqInst s r == some p.inst
      | none => false)
    let res := if macsecOff s then (3, s) else if !own then (1, s) else if !rb s (scCfg m c) 31 then (3, s) else f s
    let s := if clr then mscClear r res.2 else res.2
    rset s (reqKey r 0xC0104C) (w32 res.1)) s

/-- MSC_INSTALL (R104). -/
def execMscInstall (r : Req) (m c : Fin 64) (an : Fin 4) (s : State) : Result :=
  let bank := (List.range 12).map (fun w => rv s (reqKey r (0xC01000 + 4 * w)))
  .next (mscCmd r true 1 m.val c.val an.val (fun s =>
    if (saOf s m.val c.val an.val).isSome then (2, s)
    else
      let lo := (rv s (reqKey r 0xC01044)).toNat
      let hi := (rv s (reqKey r 0xC01048)).toNat
      let n := if rf s (scCfg m.val c.val) 23 21 % 2 = 0 then 4 else 8
      let x := scXpn s m.val c.val
      let e : Sa := { key := bank.take n, salt := if x then (bank.drop 8).take 3 else [],
                      ssci := if x then (bank[11]?).getD 0 else 0, pn := if x then hi * 2 ^ 32 + lo else lo }
      (0, setSa m.val c.val an.val (some e) s)) s)

/-- MSC_DELETE (R104). -/
def execMscDelete (r : Req) (m c : Fin 64) (an : Fin 4) (s : State) : Result :=
  .next (mscCmd r true 2 m.val c.val an.val (fun s =>
    if (saOf s m.val c.val an.val).isNone then (4, s) else (0, setSa m.val c.val an.val none s)) s)

/-- TX_SWITCH (R106). -/
def execTxSwitch (r : Req) (m c : Fin 64) (an : Fin 4) (s : State) : Result :=
  .next (mscCmd r false 3 m.val c.val an.val (fun s =>
    if !rb s (scCfg m.val c.val) 30 then (3, s)
    else if (saOf s m.val c.val an.val).isNone then (4, s)
    else (0, { s with port := { s.port with txNext := mins s.port.txNext (64 * m.val + c.val) an.val } })) s)

/-- READ_PN (R107). -/
def execReadPn (r : Req) (m c : Fin 64) (an : Fin 4) (s : State) : Result :=
  .next (mscCmd r false 4 m.val c.val an.val (fun s => match saOf s m.val c.val an.val with
    | none => (4, s)
    | some x => (0, rset (rset s (reqKey r 0xC01044) (w32 x.pn)) (reqKey r 0xC01048) (w32 (x.pn / 2 ^ 32)))) s)

/-- READ_STATS (R107). -/
def execReadStats (r : Req) (m c : Fin 64) (an : Fin 4) (s : State) : Result :=
  .next (mscCmd r false 5 m.val c.val an.val (fun s =>
    let l := mget s.port.stats (64 * m.val + c.val) []
    let g := mget s.port.stats (4096 + m.val) []
    (0, foldS (List.range 32) (fun k s =>
      rset s (reqKey r (0xC01100 + 4 * k)) (w32 (satAdd 32 ((l[k]?).getD 0).toNat ((g[k]?).getD 0).toNat))) s)) s)

end Sys2Proof.Machine
end

