-- ==== Sys2Proof/Machine/PortCmd.lean ====
section
/-! DEFINITION. The commands of the ports: frames in and out, flow control, lanes, the time counter (03_ports.md R92 to
R120). -/

namespace Sys2Proof.Machine

/-- PRT_CNT[m][k] (R121). -/
def prtCnt (m k : Nat) : Nat := 0x801100 + 0x10000 * m + 4 * k

/-- Lanes of each PHY type (R93). -/
def phyLanes (k : Nat) : Nat := ([1, 1, 1, 1, 4, 2, 1, 4, 2, 8, 4][k]?).getD 1

/-- The first lane of a MAC's group (R92). -/
def macLane (m : Nat) : Nat := m / 16 * 8 + m % 16 / 2

/-- A MAC is attached (R121). -/
def attached (s : State) (m : Nat) : Bool := rb s (macCfg m) 31

/-- The lanes of a MAC's group (R92). -/
def macLanes (s : State) (m : Nat) : List Nat :=
  (List.range (phyLanes (rf s (macCfg m) 27 24))).map (· + macLane m)

/-- The lane group that holds a lane: that of the attached MAC whose group contains it, or the lane alone (R92). -/
def laneGroup (s : State) (l : Nat) : List Nat :=
  match (List.range 64).find? (fun m => attached s m && (macLanes s m).contains l) with
  | some m => macLanes s m
  | none => [l]

/-- Traffic of a MAC is interrupted while a lane of its group retrains (R100). -/
def macRetrains (s : State) (m : Nat) : Bool := (macLanes s m).any (fun l => mget s.port.retrain l false)

/-- The pair of octet counters: low and high word (R121). -/
def octAdd (m k n : Nat) (s : State) : State :=
  let v := (rv s (prtCnt m k)).toNat + (rv s (prtCnt m (k + 1))).toNat * 2 ^ 32
  let v := satAdd 64 v n
  rset (rset s (prtCnt m k) (w32 v)) (prtCnt m (k + 1)) (w32 (v / 2 ^ 32))

/-- The FCS of a frame: CRC-32 of IEEE 802.3 (PRESUMED), as the four bytes that follow it. -/
def fcsOf (fr : List Byte) : List Byte := leBytes 4 (crcR crc32Poly 0xFFFFFFFF fr ^^^ 0xFFFFFFFF)

/-- The kind of a flow-control frame: 1 PAUSE, 2 PFC, 0 neither (IEEE 802.3 and 802.1Qbb, PRESUMED). -/
def fcKind (fr : List Byte) : Nat :=
  if be16 fr 12 != 0x8808 then 0 else if be16 fr 14 = 1 then 1 else if be16 fr 14 = 0x0101 then 2 else 0

/-- MODE of a network port: 0 NONE, 1 PAUSE, 2 PFC (R124). -/
def fcMode (s : State) (n : Nat) : Nat := rf s (0x1008000 + 4 * n) 31 30

/-- A received pause of a class: it ends after its quanta of 512 bit times; quanta 0 end it at once (R97). -/
def pauseSet (n c q rate : Nat) (s : State) : State :=
  let p := if q = 0 || rate = 0 then mdel s.port.paused (n * 8 + c)
    else mins s.port.paused (n * 8 + c) (s.clk.fab + cdiv (q * 512) rate)
  { s with port := { s.port with paused := p } }

/-- The MAC consumes a PAUSE or PFC frame (R97). -/
def flowReceive (m n : Nat) (fr : List Byte) (s : State) : State :=
  let s := cnt (prtCnt m 5) s
  let rate := phyRate (rf s (macCfg m) 27 24)
  match fcMode s n, fcKind fr with
  | 1, 1 => foldS (List.range 8) (fun c s => pauseSet n c (be16 fr 16) rate s) s
  | 2, 2 => foldS (List.range 8) (fun c s =>
      if nbits (be16 fr 16) c c = 1 then pauseSet n c (be16 fr (18 + 2 * c)) rate s else s) s
  | _, _ => s

/-- The priority admission places a frame in (R114). -/
def admPrio (s : State) (n : Nat) (fr : List Byte) : Nat :=
  if fcMode s n = 2 then
    (if be16 fr 12 = 0x8100 || be16 fr 12 = 0x88A8 then be16 fr 14 / 8192 else rf s (0x1008000 + 4 * n) 29 27)
  else 0

/-- Charge `k` cells of a frame one by one (R115): how many went to GUAR, to the shared pool and to HEADROOM, or none
where one found no place. -/
def admCharge (ll : Bool) (guar lim head : Nat) : Nat → Occ → Int → Option (Occ × Int)
  | 0, o, f => some (o, f)
  | k + 1, o, f =>
    if o.g < guar then admCharge ll guar lim head k { o with g := o.g + 1 } f
    else if o.s < lim && 0 < f then admCharge ll guar lim head k { o with s := o.s + 1 } (f - 1)
    else if !ll then admCharge ll guar lim head k { o with s := o.s + 1 } (f - 1)
    else if o.h < head then admCharge ll guar lim head k { o with h := o.h + 1 } f
    else none

/-- Raise every XOFF whose condition holds after a charge (R116). -/
def xoffJudge (n c : Nat) (s : State) : State :=
  let s := if guarOf s n c + sharedLimit s n c ≤ occSum s n c then xoffRaise n c s else s
  if sharedFree s < 2304 then foldS (List.range 512) (fun k s => xoffRaise (k / 8) (k % 8) s) s else s

/-- Ingress admission of a frame from network port `n` (R114 to R116): frames of an instance that is not running are
dropped (16 R436). -/
def admitFrame (m n : Nat) (fr : List Byte) (s : State) : State :=
  match portInst s n with
  | none => s
  | some i =>
    if insState s i != .run then countDrop 0x43 i s
    else if !running s 12 0 then s
    else
      let c := admPrio s n fr
      let ll := lossless s n c
      let o := occOf s n c
      if !ll && !(decide (occSum s n c < guarOf s n c) ||
          (decide (occSum s n c < guarOf s n c + sharedLimit s n c) && decide (36 ≤ sharedFree s))) then
        cnt (0x1001900 + 0x20 * n + 4 * c) (countDrop 0x20 i s)
      else
        let k := cdiv fr.length 256
        match admCharge ll (guarOf s n c) (sharedLimit s n c) (headroomOf s n c) k o (sharedFree s) with
        | none => cnt (0x1002100 + 0x20 * n + 4 * c) s
        | some (o', _) => match freeCell s with
          | (none, s) => s
          | (some cell, s) =>
            let t := s.clk.sec * 1000000000 * 2 ^ 40 + s.clk.ns * 2 ^ 40 + s.clk.frac
            let t := ((t : Int) + sgn 32 (rv s (0xE08100 + 8 * m)).toNat * 2 ^ 24).toNat / 2 ^ 40
            let p := { Pkt.init with
              inst := i, win := fr, bytes := fr, inPort := n, from_ := n, pipe := m / 16, rxNs := t % 1000000000, rxSec := t / 1000000000,
              cells := k, guar := o'.g - o.g, shared := o'.s - o.s, head := o'.h - o.h, prio := c }
            let s := setPkt cell p s
            let s := { s with port := { s.port with
              occ := mput s.port.occ (n * 8 + c) o' ⟨0, 0, 0⟩,
              sharedUsed := s.port.sharedUsed + (o'.s - o.s),
              toParse := mput s.port.toParse (m / 16) (mget s.port.toParse (m / 16) [] ++ [cell]) [] } }
            xoffJudge n c s

/-- FRAME_RECEIVE (R96): a frame with its FCS at an attached MAC. `coding`: a PCS error or an uncorrectable codeword touches
it; `corr` and `unc` are the FEC codewords corrected and not correctable since the frame before. -/
def execFrameReceive (m : Fin 64) (fr : List Byte) (coding : Bool) (corr unc : Fin 65536) (s : State) : Result :=
  let m := m.val
  .next (match macPort s m with
    | none => s
    | some p =>
      if !attached s m || macRetrains s m then s
      else
        let s := cntAdd (prtCnt m 9) unc.val (cntAdd (prtCnt m 8) corr.val s)
        if !running s 9 m then cnt (prtCnt m 14) s
        else if coding then cnt (prtCnt m 4) s
        else if fr.length < 64 then cnt (prtCnt m 2) s
        else if rf s (macCfg m) 13 0 < fr.length then cnt (prtCnt m 3) s
        else
          let b := fr.take (fr.length - 4)
          if fcsOf b != fr.drop (fr.length - 4) then cnt (prtCnt m 1) s
          else
            let s := octAdd m 10 fr.length (cnt (prtCnt m 0) s)
            if fcKind b != 0 then flowReceive m p.lport b s
            else match macRx m b s with
              | (none, s) => s
              | (some b, s) => admitFrame m p.lport b s)

/-- FLOWCTL_FRAME_RECEIVE (R97): a good PAUSE or PFC frame, without its FCS, at an attached and running MAC. -/
def execFlowctlFrameReceive (m : Fin 64) (fr : List Byte) (s : State) : Result :=
  .next (match macPort s m.val with
    | none => s
    | some p => if attached s m.val && running s 9 m.val && fcKind fr != 0 then flowReceive m.val p.lport fr s else s)

/-- PAUSE_EXPIRE (R97). -/
def execPauseExpire (n : Fin 64) (c : Fin 8) (s : State) : Result :=
  .next (match mfind s.port.paused (n.val * 8 + c.val) with
    | none => s
    | some t => if t ≤ s.clk.fab then { s with port := { s.port with paused := mdel s.port.paused (n.val * 8 + c.val) } } else s)

/-- CTX_HOLD_EXPIRE (R116): an instance has had no free context for HOLD_NS. -/
def execCtxHoldExpire (i : Fin 32) (s : State) : Result :=
  .next (match mfind s.port.noCtx i.val with
    | none => s
    | some t =>
      if s.clk.fab < t + rf s 0x1009104 15 0 || ctxFree s i.val != 0 then s
      else
        let ns := (s.img.port.filter (fun p => p.inst == i.val)).map (·.lport)
        rsetF (foldS ns (fun n s => foldS (List.range 8) (fun c s => xoffRaise n c s) s) s) 0x1001000 i.val i.val 1)

/-- A PAUSE or PFC frame of a port (R117): destination 01-80-C2-00-00-01, the source address free, padded with zeros
(IEEE 802.3 and 802.1Qbb, PRESUMED). -/
def fcFrame (n : Nat) (s : State) : List Byte × State :=
  let (src, s) := freeBytes 6 s
  let x (c : Nat) : Bool := mget s.port.xoff (n * 8 + c) false
  let z (c : Nat) : Bool := mget s.port.cleared (n * 8 + c) false
  let body := if fcMode s n = 2 then
      beBytes 2 0x0101 ++ beBytes 2 (((List.range 8).map (fun c => if x c || z c then 2 ^ c else 0)).sum) ++
        ((List.range 8).map (fun c => beBytes 2 (if x c then 0xFFFF else 0))).flatten
    else beBytes 2 1 ++ beBytes 2 (if x 0 then 0xFFFF else 0)
  (sliceB (beBytes 6 0x0180C2000001 ++ src ++ beBytes 2 0x8808 ++ body) 0 60, s)

/-- FLOWCTL_FRAME_SEND: a port's queued flow-control frame goes out (R117). -/
def execFlowctlFrameSend (n : Fin 64) (s : State) : Result :=
  let n := n.val
  .next (match lportRec s n with
    | none => s
    | some p =>
      if !mget s.port.fcq n false || fcMode s n = 0 || portRate s n = 0 then s
      else
        let (fr, s) := fcFrame n s
        let s := cnt (prtCnt p.mac 7) (emit (.frame n fr false true) s)
        { s with port := { s.port with
            fcq := mput s.port.fcq n false false, fcAt := mins s.port.fcAt n s.clk.fab,
            cleared := mclear s.port.cleared (n * 8) 8 } })

/-- FLOWCTL_REPEAT: while XOFF holds, the frame is queued again every 32,768 quanta (R117). -/
def execFlowctlRepeat (n : Fin 64) (s : State) : Result :=
  let n := n.val
  let held := (List.range 8).any (fun c => mget s.port.xoff (n * 8 + c) false)
  .next (if held && portRate s n != 0 &&
      decide ((mget s.port.fcAt n 0) + cdiv (32768 * 512) (portRate s n) ≤ s.clk.fab) then fcQueue n s else s)

/-- LOCAL_FAULT: the transmit side sends Remote Fault, and every XOFF state of the port is cleared (R98). -/
def execLocalFault (m : Fin 64) (s : State) : Result :=
  .next (match macPort s m.val with
    | none => s
    | some p =>
      let a := p.lport * 8
      { s with port := { s.port with
          lfault := mput s.port.lfault m.val true false, xoff := mclear s.port.xoff a 8, cleared := mclear s.port.cleared a 8,
          paused := mclear s.port.paused a 8, fcq := mput s.port.fcq p.lport false false } })

/-- LOCAL_FAULT_CLEAR: the port returns to frames and idles (R98). -/
def execLocalFaultClear (m : Fin 64) (s : State) : Result :=
  .next { s with port := { s.port with lfault := mput s.port.lfault m.val false false } }

/-- PRT_LANESTS of a lane (R121). -/
def laneSts (l : Nat) : Nat := 0x801004 + 0x20000 * l

/-- A lane group starts a full re-adaptation; an eye scan under way on one of its lanes is aborted (R100, R101). -/
def laneRetrain (l : Nat) (s : State) : State :=
  foldS (laneGroup s l) (fun k s =>
    let s := { s with port := { s.port with retrain := mput s.port.retrain k true false } }
    let s := rsetF s (laneSts k) 29 29 0
    if rf s (laneSts k) 27 26 = 1 then rsetF s (laneSts k) 27 26 3 else s) s

/-- LANE_LOSS_OF_LOCK (R100): LOL, a SERDES record, and a re-adaptation. -/
def execLaneLossOfLock (l : Fin 32) (s : State) : Result :=
  let s := rsetF (rsetF s (laneSts l.val) 28 28 1) (laneSts l.val) 30 30 0
  .next (laneRetrain l.val (ercReport 0x8B 1 1 l.val 0 none s))

/-- RETRAIN (R100). -/
def execRetrain (r : Req) (l : Fin 32) (s : State) : Result := .next (asked r (0x801000 + 0x20000 * l.val) (laneRetrain l.val) s)

/-- RETRAIN_DONE: every lane of the group is locked and adapted (R100). -/
def execRetrainDone (l : Fin 32) (s : State) : Result :=
  .next (foldS (laneGroup s l.val) (fun k s =>
    if mget s.port.retrain k false then
      rsetF { s with port := { s.port with retrain := mput s.port.retrain k false false } } (laneSts k) 31 29 7
    else s) s)

/-- EYE_SCAN: ignored while a scan is running (R101). -/
def execEyeScan (r : Req) (l : Fin 32) (s : State) : Result :=
  .next (asked r (0x801000 + 0x20000 * l.val) (fun s => rsetF s (laneSts l.val) 27 26 1) s)

/-- EYE_SCAN_DONE: a running scan leaves the smallest eye measured in PRT_EYE (R101). -/
def execEyeScanDone (l : Fin 32) (h w : Fin 65536) (s : State) : Result :=
  .next (if rf s (laneSts l.val) 27 26 = 1 && w.val ≤ 1000 then
      rset (rsetF s (laneSts l.val) 27 26 2) (0x801008 + 0x20000 * l.val) (w32 (h.val * 65536 + w.val))
    else s)

/-- Jumps of the time counter: running and pending gate lists follow the new time, and each is counted (14 R391, 08 R258). -/
def ptpJump (s : State) : State :=
  let s := { s with clk := { s.clk with jumpAt := s.clk.fab } }
  foldS (List.range 64) (fun n s =>
    let g := gateOf s n
    if g.on || g.pend.isSome then
      let s := cnt (tmPortCnt n 4) s
      if g.on then setGate n { g with open_ := (gateAt s n (ptpNs s)).1 } s else s
    else s) s

/-- PTP_SET (R109). -/
def execPtpSet (r : Req) (s : State) : Result :=
  .next (askedX r 0xE08014 (fun s => expertSet 0xE08014 <| ptpJump { s with clk := { s.clk with
    sec := rf s 0xE0800C 15 0 * 2 ^ 32 + (rv s 0xE08008).toNat, ns := (rv s 0xE08004).toNat, frac := 0 } }) s)

/-- PTP_STEP (R109): seconds are counted modulo 2^48. -/
def execPtpStep (r : Req) (s : State) : Result :=
  .next (askedX r 0xE08014 (fun s =>
    let t := ((ptpNs s : Int) + sgn 32 (rv s 0xE08010).toNat).emod ((2 ^ 48 * 1000000000 : Nat) : Int)
    expertSet 0xE08014 (ptpJump { s with clk := { s.clk with sec := t.toNat / 1000000000, ns := t.toNat % 1000000000 } })) s)

/-- The reported fraction of the counter: its 16 most significant bits (R108). -/
def ptpFrac (s : State) : Nat := s.clk.frac / 2 ^ 24

/-- PTP_TIME_LATCH: the read latches the whole counter for the requester and returns the fraction (R110). -/
def execPtpTimeLatch (r : Req) (s : State) : Result :=
  .next (match access r 0xE01000 false s with
    | some c => accErr r c 0xE01000 s
    | none =>
      let s := rset s (reqKey r 0xE01000) (w32 (ptpFrac s))
      let s := rset s (reqKey r 0xE01004) (w32 s.clk.ns)
      let s := rset s (reqKey r 0xE01008) (w32 s.clk.sec)
      let s := rset s (reqKey r 0xE0100C) (w32 (s.clk.sec / 2 ^ 32))
      emit (.readData r (w32 (ptpFrac s))) s)

/-- TSF_POP: a read of PTP_TSF_TAG pops one timestamp (R112). -/
def execTsfPop (r : Req) (m : Fin 64) (s : State) : Result :=
  let a := 0xE01100 + 0x10 * m.val
  .next (match access r a false s with
    | some c => accErr r c a s
    | none => match mget s.port.tsf m.val [] with
      | [] => emit (.readData r 0) s
      | t :: l =>
        let ovf := mget s.port.tsfOvf m.val false
        let w := w32 (2 ^ 31 + b2n ovf * 2 ^ 30 + t.tag % 2 ^ 28)
        let s := { s with port := { s.port with tsf := mput s.port.tsf m.val l [], tsfOvf := mput s.port.tsfOvf m.val false false } }
        let s := rset s (a + 4) (w32 t.ns)
        let s := rset s (a + 8) (w32 t.sec)
        let s := rset s (a + 12) (w32 (t.frac % 65536 * 65536 + t.sec / 2 ^ 32 % 65536))
        emit (.readData r w) s)

/-- PPS_OUT_PULSE: the counter's nanoseconds have passed zero, within the pulse's width (R113). -/
def execPpsOutPulse (s : State) : Result :=
  .next (if rb s 0xE08018 31 && decide (s.clk.ns < rf s 0xE08018 19 0 * 100) then
      { s with port := { s.port with ppsOut := true } } else s)

/-- Capture the counter into PTP_PPSCAP (R113, R123). -/
def ppsCapture (src : Nat) (s : State) : State :=
  rset (rset (rset (rset s 0xE01600 (w32 (ptpFrac s))) 0xE01604 (w32 s.clk.ns)) 0xE01608 (w32 s.clk.sec)) 0xE0160C (w32 src)

/-- PPS_IN_CAPTURE (R113). -/
def execPpsInCapture (s : State) : Result := .next (if rb s 0xE08018 30 then ppsCapture 0 s else s)

/-- SYNC10M_CAPTURE: one cycle of SYNC10M_IN; every tenth captures (R113). -/
def execSync10mCapture (s : State) : Result :=
  .next (if !rb s 0xE08018 29 then s
    else if s.port.sync10 = 9 then ppsCapture 1 { s with port := { s.port with sync10 := 0 } }
    else { s with port := { s.port with sync10 := s.port.sync10 + 1 } })

/-- PART_NS by rate (R118). -/
def partNs (rate : Nat) : Nat := match rate with
  | 10 => 3000
  | 25 => 1500
  | 50 => 1000
  | 100 => 800
  | 200 => 600
  | _ => 500

/-- LOSSLESS is legal under a MODE (R114). -/
def losslessOk (mode ll : Nat) : Bool := mode == 2 || (mode == 1 && decide (ll ≤ 1)) || (mode == 0 && ll == 0)

/-- The fields a write of ING_FCBASIC derives (R118). -/
def fcDerive (n : Nat) (v : Word) (mf rate : Nat) (s : State) : State :=
  let ll := bits v 23 16
  let s := rset s (0x1008000 + 4 * n) (w32 (bits v 31 27 * 2 ^ 27 + ll * 2 ^ 16))
  foldS (List.range 8) (fun c s =>
    let g := 2 * cdiv mf 256
    let ns := 2 * bits v 11 0 * 5 + 150 + partNs rate
    let h := if nbits ll c c = 1 then cdiv (cdiv (rate * ns) 8 + mf + 20) 84 + cdiv mf 256 else 0
    let s := rset s (ingPqa n c) (w32 (h % 65536 * 65536 + g))
    rset s (ingPqb n c) (w32 ((g / 8 - 1) * 2 ^ 24 + 8192))) s

/-- FCBASIC_WRITE (R118): rejected where it names a reserved value, sets LOSSLESS with no RATE, leaves less than 4,608
cells to the shared pool, or the basic page is locked (01 R51). -/
def execFcbasicWrite (r : Req) (n : Fin 64) (v : Word) (s : State) : Result :=
  let a := 0x1000100 + 4 * n.val
  .next (asked r a (fun s =>
    let mac := lportRec s n.val
    let mf := match mac with
      | some p => rf s (macCfg p.mac) 13 0
      | none => 1522
    let rate := match mac with
      | some p => phyRate (rf s (macCfg p.mac) 27 24)
      | none => 0
    if (blkGet s 12 0).expert then blkMod s 12 0 (fun k => { k with cfgMode := true })
    else if bits v 31 30 = 3 || !losslessOk (bits v 31 30) (bits v 23 16) || (bits v 23 16 != 0 && rate = 0) then cfgReject 12 0 s
    else
      let t := fcDerive n.val v mf rate (rset s a (v &&& 0xF8FF0FFF))
      if sharedPool t < 4608 then cfgReject 12 0 s else t) s)

/-- One-step insertion (R113): the departure time in units of 2^-16 ns, modulo 2^64, into the correctionField of a Sync
message; the UDP checksum follows incrementally. -/
def oneStepPut (fr : List Byte) (ptp : Nat) (udp : Option Nat) (t : Nat) : List Byte :=
  let new := listPut fr (ptp + 8) (beBytes 8 (t / 2 ^ 24))
  match udp with
  | none => new
  | some u =>
    let c := be16 fr (u + 6)
    if c = 0 then new
    else
      let odd := (ptp - u) % 2
      let sum (l : List Byte) : Nat := ocSum (sliceB l (ptp + 8 - odd) (8 + 2 * odd))
      listPut new (u + 6) (beBytes 2 (udpSum (65535 - ocFold ((65535 - c) + (65535 - sum fr) + sum new))))

/-- A two-step transmit timestamp of a PTP event message (R112). -/
def tsfPut (m : Nat) (fr : List Byte) (ptp t : Nat) (s : State) : State :=
  let l := mget s.port.tsf m []
  let b (k : Nat) : Nat := beVal (sliceB fr (ptp + k) 1)
  if 4 ≤ b 0 % 16 then s
  else if 64 ≤ l.length then { s with port := { s.port with tsfOvf := mput s.port.tsfOvf m true false } }
  else
    let e : Tsf := { tag := b 0 % 16 * 2 ^ 24 + b 4 * 65536 + be16 fr (ptp + 30), ns := t / 2 ^ 40 % 1000000000,
                     sec := t / 2 ^ 40 / 1000000000, frac := t % 2 ^ 40 / 2 ^ 24 }
    { s with port := { s.port with tsf := mput s.port.tsf m (l ++ [e]) [] } }

/-- Take the first frame that goes out by a port. -/
def txTake (l : List EFrame) (n : Nat) : Option (EFrame × List EFrame) := match l.find? (fun f => f.port == n) with
  | none => none
  | some f => some (f, l.erase f)

/-- FRAME_TRANSMIT: the first frame past the governors of a port goes out (R103, R111 to R113, 18 R473), and its cells are
freed. -/
def execFrameTransmit (n : Fin 64) (s : State) : Result :=
  .next (match lportRec s n.val, txTake s.port.toTx n.val with
    | some r, some (f, rest) =>
      if portRate s n.val = 0 || macRetrains s r.mac || mget s.port.lfault r.mac false then s
      else
        let s := { s with port := { s.port with toTx := rest } }
        let t := (ptpNs s * 2 ^ 40 + s.clk.frac : Nat)
        let t := ((t : Int) + sgn 32 (rv s (0xE08104 + 8 * r.mac)).toNat * 2 ^ 24).toNat
        let fr := match f.ptp with
          | some (p, u, true) => if beVal (sliceB f.bytes p 1) % 16 = 0 then oneStepPut f.bytes p u t else f.bytes
          | _ => f.bytes
        let bad := ((pktOf s f.cell).getD Pkt.init).bad
        let s := pktFree f.cell s
        match macTx r.mac fr s with
        | (none, s) => s
        | (some w, s) =>
          let s := emit (.frame n.val w bad false) s
          let s := octAdd r.mac 12 (w.length + 4) (cnt (prtCnt r.mac 6) s)
          match f.ptp with
          | some (p, _, false) => tsfPut r.mac fr p t s
          | _ => s
    | _, _ => s)

end Sys2Proof.Machine
end

