-- ==== Sys2Proof/Machine/EgrCmd.lean ====
section
/-! DEFINITION. The egress editor's command and the Hollyhock governors (04_parse_classify.md R154, 17_secrecy.md R465 to
R469). -/

namespace Sys2Proof.Machine

/-- Where an edited packet's PTP header and the UDP header before it lie, and its one-step mark (03 R112, R113). -/
def ptpOf (s : State) (p : Pkt) (r : EdRes) : Option (Nat × Option Nat × Bool) :=
  let g := graphOf s p.inst p.slot
  let popped (k : Nat) : Bool := p.edits.any (fun o => o.op == 0x18 && o.a == k)
  let at_ (k : Nat) : Nat := (r.pos[k]?).getD 0
  let hs := (List.range p.parse.hdrs.length).filter (fun k => !popped k)
  let h := match p.oneStep with
    | some k => if hs.contains k then some k else none
    | none => hs.find? (fun k => kindOf g (hdrAt p.parse k).ty == 12)
  match h with
  | none => none
  | some k =>
    let u := if k != 0 && kindOf g (hdrAt p.parse (k - 1)).ty = 8 && !popped (k - 1) then some (at_ (k - 1)) else none
    some (at_ k, u, p.oneStep == some k)

/-- A recirculated packet, as edited, for its next pass in the pipe of its first (01 R29, 04 R129, 05 R180). -/
def recircIn (cell : Nat) (p : Pkt) (bs : List Byte) (s : State) : State :=
  let p := { p with
    win := bs, bytes := bs, edits := [], mirrors := 0, oneStep := none, inPort := 120, pass := p.pass + 1, lkp := [], verdict := 0,
    trap := none, direct := false, scan := none, saved := [] }
  let s := setPkt cell p s
  cnt (0x1401D04 + 0x100000 * p.pipe)
    { s with port := { s.port with toParse := mput s.port.toParse p.pipe (mget s.port.toParse p.pipe [] ++ [cell]) [] } }

/-- Bytes of the words of an EDIT result for the steward. -/
def toSteward (cell : Nat) (bs : List Byte) (s : State) : State := pktFree cell (emit (.toSteward bs) s)

/-- EGRESS_EDIT: the first frame waiting for the editor is edited (R154) and goes on: to the governors, to its host port,
to the parser again (port 120), to the steward (port 121). A frame to the replay port 122 leaves the packet path there. -/
def execEgressEdit (s : State) : Result :=
  .next (match s.port.toEdit with
    | [] => s
    | f :: t =>
      if !running s 25 0 then s
      else
        let s := { s with port := { s.port with toEdit := t } }
        match pktOf s f.cell with
        | none => s
        | some p =>
          let r := edRun s p
          let s := cntAdd (egrCnt p.inst 1) r.nop s
          if r.ttl then pktDrop 0x2B f.cell s
          else
            let (pad, s) := freeBytes (60 - r.bytes.length) s
            let bs := r.bytes ++ pad
            if maxFrame s f.port < bs.length + 4 then cnt (egrCnt p.inst 2) (pktDrop 0x2C f.cell s)
            else
              let s := if p.edits.isEmpty then s else cnt (egrCnt p.inst 0) s
              let e := { f with bytes := bs, ptp := ptpOf s p r }
              if f.port < 64 then { s with port := { s.port with toGov := s.port.toGov ++ [e] } }
              else if f.port ≤ 96 then { s with port := { s.port with toTx := s.port.toTx ++ [e] } }
              else if f.port = 120 then recircIn f.cell p bs s
              else if f.port = 121 then toSteward f.cell bs s
              else pktFree f.cell s)

/-- GOV_PORTSTS[n] (R472). -/
def govSts (n : Nat) : Nat := 0x3D01000 + 4 * n

/-- GOV_LIMIT[n][k]: the effective limits (R467, R472). -/
def govLim (s : State) (n k : Nat) : Nat := (rv s (0x3D02000 + 0x20 * n + 4 * k)).toNat

/-- The governor buckets of a port. -/
def govB (s : State) (n : Nat) : GovB := mget s.sec.gov n ⟨0, 0, 0, 0, 0⟩

/-- Set the governor buckets of a port. -/
def setGovB (n : Nat) (b : GovB) (s : State) : State := { s with sec := { s.sec with gov := mins s.sec.gov n b } }

/-- The buckets of a port refilled to now (R468). -/
def govFill (s : State) (n : Nat) : GovB :=
  let b := govB s n
  let dt := s.clk.fab - b.last
  { ft := b.ft - govLim s n 0 * dt, sb := b.sb - govLim s n 2 * dt, sm := b.sm - govLim s n 3 * dt,
    bt := b.bt - govLim s n 1 * dt, last := s.clk.fab }

/-- A source MAC matches a prefix of `len` bits (R468). -/
def pfxMatch (src pfx len : Nat) : Bool := src / 2 ^ (48 - len) == pfx / 2 ^ (48 - len)

/-- A number of `w` fuse bits from bit `a` (R444). -/
def fuseNum (s : State) (a w : Nat) : Nat := ((List.range w).map (fun k => if fuseBit s (a + k) then 2 ^ k else 0)).sum

/-- The source passes the fused prefixes (R468). -/
def srcFused (s : State) (src : Nat) : Bool :=
  let es := (List.range 4).filter (fun e => fuseBit s (1792 + 64 * e + 54))
  es.isEmpty || es.any (fun e => pfxMatch src (fuseNum s (1792 + 64 * e) 48) (fuseNum s (1792 + 64 * e + 48) 6))

/-- The source passes the prefix sets of a port (R468, R472). -/
def srcSets (s : State) (n src : Nat) : Bool :=
  let sets := govLim s n 6
  sets == 0 || (List.range 64).any (fun e =>
    let w := rv s (0x3D04000 + 8 * e)
    bit w 31 && nbits sets (bits w 27 24) (bits w 27 24) == 1 &&
    pfxMatch src (bits w 15 0 * 2 ^ 32 + (rv s (0x3D04004 + 8 * e)).toNat) (bits w 21 16))

/-- Judge a frame at a governor (R468): the drop reason, or the buckets once it has taken its tokens. -/
def govJudge (s : State) (n : Nat) (fr : List Byte) : Nat ⊕ GovB :=
  let b := govFill s n
  let burst := govLim s n 4
  let dst := beVal (sliceB fr 0 6)
  let src := beVal (sliceB fr 6 6)
  let bc := dst == 2 ^ 48 - 1
  let mc := decide (dst / 2 ^ 40 % 2 = 1) && !bc
  let prot := match lportRec s n with
    | some r => (List.range 64).any (fun c => rb s (scCfg r.mac c) 31 && rb s (scCfg r.mac c) 30)
    | none => false
  let len := fr.length + 24 + (if prot then 32 else 0)
  let depth := max 9268 (2 * govLim s n 1)
  if !srcFused s src || !srcSets s n src then .inl 0x5A
  else if bc && govLim s n 2 != 0 && decide (burst * 1000000000 < b.sb + 1000000000) then .inl 0x5B
  else if mc && govLim s n 3 != 0 && decide (burst * 1000000000 < b.sm + 1000000000) then .inl 0x5B
  else if govLim s n 0 != 0 && decide (burst * 1000000 < b.ft + 1000000) then .inl 0x59
  else if govLim s n 1 != 0 && decide (depth * 8000 < b.bt + len * 8000) then .inl 0x59
  else .inr { b with ft := b.ft + 1000000, sb := b.sb + (if bc then 1000000000 else 0),
                     sm := b.sm + (if mc then 1000000000 else 0), bt := b.bt + len * 8000 }

/-- A drop at a governor counts toward the trip of its port (R469). -/
def govTrip (n : Nat) (s : State) : State :=
  let t := satAdd 16 (rf s (govSts n) 15 0) 1
  let s := rsetF s (govSts n) 15 0 t
  if govLim s n 5 != 0 && t = govLim s n 5 then
    let s := rsetF s (govSts n) 30 30 1
    let s := cnt 0x301110 (cnt (0x3D03010 + 0x20 * n) (ercReport 0x8D 1 2 n t none s))
    if rb s (govSts n) 29 then rsetF s (govSts n) 31 31 1 else s
  else s

/-- GOV_CNT index of a governor's drop reason (R472). -/
def govCntOf (r : Nat) : Nat := match r with
  | 0x59 => 0
  | 0x5A => 1
  | 0x5B => 2
  | _ => 3

/-- GOVERNOR_FRAME: the first frame waiting for the governors is judged (R468). -/
def execGovernorFrame (s : State) : Result :=
  .next (match s.port.toGov with
    | [] => s
    | f :: t =>
      if !running s 26 0 then s
      else
        let s := { s with port := { s.port with toGov := t } }
        let drop (r : Nat) (s : State) : State :=
          pktDrop r f.cell (cnt (0x3D03000 + 0x20 * f.port + 4 * govCntOf r) s)
        if rb s (govSts f.port) 31 then drop 0x5C s
        else match govJudge s f.port f.bytes with
          | .inl r => govTrip f.port (drop r (setGovB f.port (govFill s f.port) s))
          | .inr b => setGovB f.port b { s with port := { s.port with toTx := s.port.toTx ++ [f] } })

/-- GOV_WINDOW: at a 1 ms boundary of the FAB count TRIPCNT of every port returns to 0 (R469). -/
def execGovWindow (s : State) : Result :=
  let w := s.clk.fab / 1000000
  .next (if w = s.sec.govWin then s
    else foldS (List.range 64) (fun n s => rsetF s (govSts n) 15 0 0) { s with sec := { s.sec with govWin := w } })

end Sys2Proof.Machine
end

