-- ==== Sys2Proof/Machine/ImgRec.lean ====
section
/-! DEFINITION. The records of a structure image: their bytes, what makes one a fault by itself, and the expansion of basic
records (02_structure_image.md R60 to R76, R88 to R91, 04_parse_classify.md R125 to R127, 17_secrecy.md R466). -/

namespace Sys2Proof.Machine

/-- A load failure: its status of R83, and the two fields of the status word (R553). -/
structure LErr where
  st : Nat
  ty : Nat
  ix : Nat
  deriving DecidableEq, Repr

/-- The little-endian value of `n` bytes at `o` (R55). -/
def uN (b : List Byte) (o n : Nat) : Nat := leVal ((b.drop o).take n)

/-- `n` bytes at `o` are zero (R55). -/
def zerosB (b : List Byte) (o n : Nat) : Bool := ((b.drop o).take n).all (fun x => x == 0)

/-- Cut `n` records of `w` bytes. -/
def cutB (w : Nat) : Nat → List Byte → List (List Byte)
  | 0, _ => []
  | n + 1, b => b.take w :: cutB w n (b.drop w)

/-- Round up to a multiple of 8. -/
def up8 (n : Nat) : Nat := (n + 7) / 8 * 8

/-- A directory entry (R57), with its place in the directory. -/
structure DirEnt where
  ix   : Nat
  ty   : Nat
  form : Nat
  off  : Nat
  len  : Nat
  count : Nat
  deriving DecidableEq, Repr

/-- The record size of a fixed-size section (R58); 0 for the variable ones. -/
def recSize (ty form : Nat) : Nat :=
  match ty with
  | 1 => 8
  | 2 => 12
  | 3 => 40
  | 4 => 4
  | 5 => 4
  | 6 => 8
  | 7 => if form = 1 then 8 else 12
  | 8 => 16
  | _ => 0

/-- What the record check looks at besides the record: instances INST_CAP allows and CRY_DIS (17 R464). -/
structure RecEnv where
  cap   : Nat
  noCry : Bool
  deriving DecidableEq, Repr

/-- A POSY record breaks R60, or R61 by its own fields. -/
def posyBad (b : List Byte) : Bool :=
  let set := uN b 1 1 == 1
  decide (254 < uN b 0 1) || decide (1 < uN b 1 1) || uN b 2 1 == uN b 0 1 || decide (31 < uN b 3 1) ||
  (if set then uN b 4 1 != 255 else decide (127 < uN b 4 1) || uN b 5 1 != uN b 4 1) ||
  decide (127 < uN b 5 1) || decide (7 < uN b 6 1) || uN b 7 1 != 0

/-- A MODE record breaks R64. -/
def modeBad (b : List Byte) : Bool :=
  decide (254 < uN b 0 1) || decide (1 < uN b 1 1) || uN b 2 2 != 0 || decide (524287 < uN b 4 4) || decide (524287 < uN b 8 4)

/-- An INST record breaks R66, or R67 or R464 by its own fields. -/
def instBad (e : RecEnv) (b : List Byte) : Bool :=
  decide (31 < uN b 0 1) || decide (e.cap ≤ uN b 0 1) || decide (32 < uN b 1 1) || (uN b 0 1 == 0 && uN b 1 1 != 0) ||
  decide (254 < uN b 2 1) || uN b 3 1 != 0 ||
  decide (65535 < uN b 8 4) || uN b 12 4 == 0 || decide (65536 < uN b 8 4 + uN b 12 4) ||
  uN b 18 2 == 0 || decide (16384 < uN b 16 2 + uN b 18 2) || decide (16383 < uN b 16 2) ||
  decide (32767 < uN b 20 2) || decide (32768 < uN b 20 2 + uN b 22 2) ||
  decide (131071 < uN b 24 4) || decide (131072 < uN b 24 4 + uN b 28 4) ||
  uN b 32 2 == 0 || decide (8192 < uN b 32 2) || decide (16384 < uN b 34 2) || uN b 36 4 != 0

/-- A PORT record breaks R68 by its own fields. -/
def portBad (b : List Byte) : Bool :=
  decide (63 < uN b 0 1) || (decide (63 < uN b 1 1) && uN b 1 1 != 255) || (decide (31 < uN b 2 1) && uN b 2 1 != 255) ||
  (uN b 1 1 == 255) != (uN b 2 1 == 255) || decide (1 < uN b 3 1)

/-- A COPA record breaks R69 or R464. -/
def copaBad (e : RecEnv) (b : List Byte) : Bool :=
  decide (31 < uN b 0 1) || decide (127 < uN b 1 1) || (e.noCry && uN b 1 1 % 2 == 1) || uN b 2 2 != 0

/-- An OFLW record breaks R70. -/
def oflwBad (b : List Byte) : Bool :=
  decide (31 < uN b 0 1) || uN b 1 3 != 0 || decide (65535 < uN b 4 2 + uN b 6 2)

/-- A QHIE record breaks R71, or R72 by its own fields; a reserved port (01 R31) is a reserved value. -/
def qhieBad (b : List Byte) : Bool :=
  let l := uN b 0 1
  let p := uN b 8 4
  decide (2 < l) || decide (31 < uN b 1 1) || decide (7 < uN b 2 1) || decide (1 < uN b 3 1) ||
  (if l = 0 then uN b 3 1 != 0 || decide (65535 < uN b 4 4) || decide (16383 < p)
   else if l = 1 then uN b 2 1 != 0 || decide (16383 < uN b 4 4) || decide (2047 < p)
   else uN b 2 1 != 0 || decide (2047 < uN b 4 4) || portReserved p || decide (122 < p) || (p == 64 && uN b 1 1 != 0))

/-- A power of two. -/
def isPow2 (n : Nat) : Bool := n != 0 && (List.range 20).any (fun k => n == 2 ^ k)

/-- A TGEO record breaks R73 or R74 by its own fields. -/
def tgeoBad (b : List Byte) : Bool :=
  let k := uN b 2 1
  let w := uN b 3 1
  let a := uN b 4 4
  let n := uN b 8 4
  decide (254 < uN b 0 1) || decide (31 < uN b 1 1) || decide (3 < uN b 12 1) || (k != 0 && uN b 12 1 != 0) || uN b 13 3 != 0 ||
  (match k with
    | 0 => decide (2 < w) || decide (383 < a) || !isPow2 n || decide (n < 16) || decide (262144 < n) ||
        decide (25165824 < a * 65536 + n * 4 * 8 * 2 ^ w)
    | 1 => decide (1 < w) || n == 0 || decide (262144 < a + n) || decide (262143 < a) || (w == 1 && n % 2 == 1)
    | 2 => w != 0 || decide (n < 4) || decide (131071 < a) || decide (131072 < a + n)
    | _ => true)

/-- A header-type record breaks R125 or R127. -/
def ptypeBad (b : List Byte) : Bool :=
  let k := uN b 1 1
  let fix := uN b 2 1
  let lw := uN b 5 1
  let fixed (n : Nat) : Bool := lw == 0 && fix == n
  decide (12 < k) || (lw == 0 && fix == 0) || decide (254 < uN b 3 1) || decide (15 < uN b 4 1) || decide (16 < lw) ||
  (lw != 0 && decide (16 < uN b 4 1 + lw)) || decide (3 < uN b 6 1) || decide (254 < uN b 7 1) || decide (15 < uN b 8 1) ||
  decide (16 < uN b 9 1) || (uN b 9 1 != 0 && decide (16 < uN b 8 1 + uN b 9 1)) || !zerosB b 10 6 ||
  (match k with
    | 1 => !fixed 14
    | 2 => !fixed 4
    | 3 => !fixed 4
    | 4 => !(lw == 4 && fix == 0 && uN b 3 1 == 0 && uN b 4 1 == 8 && uN b 6 1 == 2)
    | 5 => !fixed 40
    | 7 => !fixed 8
    | 8 => !fixed 8
    | 9 => !(lw == 4 && fix == 0 && uN b 3 1 == 12 && uN b 4 1 == 12 && uN b 6 1 == 2)
    | 10 => lw != 0
    | 11 => !fixed 8
    | _ => false)

/-- An edge record breaks R126 by its own fields. -/
def pedgeBad (b : List Byte) : Bool := uN b 2 2 &&& uN b 4 2 != uN b 2 2 || uN b 6 2 != 0

/-- A governor port record breaks R466. -/
def govPortBad (b : List Byte) : Bool :=
  decide (63 < uN b 0 1) || decide (1 < uN b 1 1) || decide (600000 < uN b 4 4) || decide (400000 < uN b 8 4) ||
  decide (16777215 < uN b 12 4) || decide (16777215 < uN b 16 4) || uN b 20 2 == 0 || !zerosB b 24 8

/-- The prefix of a governor prefix record, MAC byte 0 first. -/
def pfxOf (b : List Byte) : Nat := beVal ((b.drop 2).take 6)

/-- A governor prefix record breaks R466. -/
def govPfxBad (b : List Byte) : Bool :=
  decide (15 < uN b 0 1) || uN b 1 1 == 0 || decide (48 < uN b 1 1) || pfxOf b % 2 ^ (48 - uN b 1 1) != 0

/-- A fixed-size expert record of a section breaks a rule its own fields decide (R78). -/
def recBad (e : RecEnv) (ty : Nat) (b : List Byte) : Bool :=
  match ty with
  | 1 => posyBad b
  | 2 => modeBad b
  | 3 => instBad e b
  | 4 => portBad b
  | 5 => copaBad e b
  | 6 => oflwBad b
  | 7 => qhieBad b
  | 8 => tgeoBad b
  | _ => false

/-- A basic record breaks R89, R90 or R91. -/
def basicBad (ty : Nat) (b : List Byte) : Bool :=
  match ty with
  | 1 => decide (31 < uN b 0 1) || decide (31 < uN b 1 1) || uN b 2 1 == 0 || decide (32 < uN b 1 1 + uN b 2 1) || !zerosB b 3 5
  | 4 => decide (3 < uN b 0 1) || decide (1 < uN b 2 1) || uN b 3 1 != 0
  | 7 => uN b 2 2 == 0 || decide (2048 < uN b 2 2) || !zerosB b 4 4
  | _ => true

/-- The bytes of an expert POSY record. -/
def posyBytes (id kind parent inst core sup : Nat) : List Byte := [by8 id, by8 kind, by8 parent, by8 inst, by8 core, by8 sup, 7, 0]

/-- The expert records of one basic POSY record, from POSY_ID `id` (R89). -/
def basicPosy1 (id : Nat) (b : List Byte) : List (List Byte) :=
  let i := uN b 0 1
  let f := uN b 1 1
  let n := uN b 2 1
  let cores (k first parent : Nat) : List (List Byte) :=
    (List.range 4).map (fun j => posyBytes (first + j) 0 parent i (4 * k + j) (4 * k + j))
  if n = 1 then posyBytes id 1 255 i 255 (4 * f) :: cores f (id + 1) id
  else posyBytes id 1 255 i 255 (4 * f) ::
    ((List.range n).map (fun m =>
      posyBytes (id + 1 + 5 * m) 1 id i 255 (4 * (f + m)) :: cores (f + m) (id + 2 + 5 * m) (id + 1 + 5 * m))).flatten

/-- The expert records of a basic POSY section, each with its basic record (R88, R89). -/
def basicPosy : Nat → Nat → List (List Byte) → List (Nat × List Byte)
  | _, _, [] => []
  | ix, id, b :: t =>
    let l := basicPosy1 id b
    l.map (fun r => (ix, r)) ++ basicPosy (ix + 1) (id + l.length) t

/-- The expert records of a basic PORT section (R90). -/
def basicPort (l : List (List Byte)) : List (Nat × List Byte) :=
  (l.zipIdx.map (fun (p : List Byte × Nat) => (List.range 16).map (fun k =>
    let m := by8 (16 * uN p.1 0 1 + k)
    (p.2, [m, m, by8 (uN p.1 1 1), by8 (uN p.1 2 1)])))).flatten

/-- The bytes of an expert QHIE record. -/
def qhieBytes (level inst cls sched node parent : Nat) : List Byte :=
  [by8 level, by8 inst, by8 cls, by8 sched] ++ leBytes 4 node ++ leBytes 4 parent

/-- The expert records of a basic QHIE section (R91): `svc` the next service index, `used` the subscribers taken by each
instance. `range` gives an instance's SUB_BASE, SUB_COUNT, QUEUE_BASE and QUEUE_COUNT. The number of the first basic record that
exhausts a range, if one does. -/
def basicQhie (range : Nat → Option (Nat × Nat × Nat × Nat)) :
    Nat → Nat → List (Nat × Nat) → List (List Byte) → List (Nat × List Byte) × Option Nat
  | _, _, _, [] => ([], none)
  | ix, svc, used, b :: t =>
    let i := uN b 1 1
    let n := uN b 2 2
    let u := mget used i 0
    match range i with
    | none => ([], some ix)
    | some (sb, sc, qb, qc) =>
      if 2047 < svc || sc < u + n || qc < 8 * (u + n) then ([], some ix)
      else
        let svcR := qhieBytes 2 i 0 1 svc (uN b 0 1)
        let subs := (List.range n).map (fun k => qhieBytes 1 i 0 1 (sb + u + k) svc)
        let qs := ((List.range n).map (fun k => (List.range 8).map (fun c =>
          qhieBytes 0 i c 0 (qb + 8 * (u + k) + c) (sb + u + k)))).flatten
        let (l, e) := basicQhie range (ix + 1) (svc + 1) (mput used i (u + n) 0) t
        ((svcR :: (subs ++ qs)).map (fun r => (ix, r)) ++ l, e)

/-- A POSY record. -/
def toPosy (b : List Byte) : PosyRec :=
  { id := uN b 0 1, isSet := uN b 1 1 == 1, parent := uN b 2 1, inst := uN b 3 1, core := uN b 4 1, supCore := uN b 5 1,
    supThread := uN b 6 1 }

/-- A MODE record. -/
def toMode (b : List Byte) : ModeRec := { root := uN b 0 1, plain := uN b 1 1 == 1, worker := uN b 4 4, sup := uN b 8 4 }

/-- An INST record. -/
def toInst (b : List Byte) : InstRec :=
  { inst := uN b 0 1, vf := uN b 1 1, root := uN b 2 1, amBanks := uN b 4 2, pools := uN b 6 2, qBase := uN b 8 4,
    qCount := uN b 12 4, subBase := uN b 16 2, subCount := uN b 18 2, polBase := uN b 20 2, polCount := uN b 22 2,
    dramBase := uN b 24 4, dramSize := uN b 28 4, contexts := uN b 32 2, timers := uN b 34 2 }

/-- A PORT record. -/
def toPort (b : List Byte) : PortRec := { mac := uN b 0 1, lport := uN b 1 1, inst := uN b 2 1, long := uN b 3 1 == 1 }

/-- A COPA record: cluster and units. -/
def toCopa (b : List Byte) : Nat × Nat := (uN b 0 1, uN b 1 1)

/-- An OFLW record. -/
def toOflw (b : List Byte) : OflwRec := { inst := uN b 0 1, base := uN b 4 2, count := uN b 6 2 + 1 }

/-- A QHIE record. -/
def toQhie (b : List Byte) : QhieRec :=
  { level := uN b 0 1, inst := uN b 1 1, cls := uN b 2 1, sched := uN b 3 1, node := uN b 4 4, parent := uN b 8 4 }

/-- A TGEO record. -/
def toTgeo (b : List Byte) : TgeoRec :=
  { table := uN b 0 1, inst := uN b 1 1, kind := uN b 2 1, width := uN b 3 1, base := uN b 4 4, size := uN b 8 4, hash := uN b 12 1 }

/-- A header-type record (04 R125). -/
def toPtype (b : List Byte) : ParseType :=
  { id := uN b 0 1, kind := uN b 1 1, fixLen := uN b 2 1, lenOff := uN b 3 1, lenLsb := uN b 4 1, lenWidth := uN b 5 1,
    lenShift := uN b 6 1, selOff := uN b 7 1, selLsb := uN b 8 1, selWidth := uN b 9 1 }

/-- An edge record (04 R126). -/
def toPedge (b : List Byte) : ParseEdge := { src := uN b 0 1, dst := uN b 1 1, value := uN b 2 2, mask := uN b 4 2 }

/-- The two record arrays of a PGRF or GOVC container: their record sizes (R75, 17 R466). -/
def contSizes (ty : Nat) : Nat × Nat := if ty = 9 then (16, 8) else (32, 8)

/-- A container header breaks R75 or R466, or an array does not lie in the section. -/
def contBad (ty : Nat) (b : List Byte) : Bool :=
  let (w1, w2) := contSizes ty
  let n1 := uN b 2 2
  let n2 := uN b 4 2
  let o1 := uN b 8 4
  let o2 := uN b 12 4
  uN b 0 1 != 1 || uN b 1 1 != 0 || uN b 6 2 != 0 || o1 % 8 != 0 || o2 % 8 != 0 ||
  (if ty = 9 then n1 == 0 || decide (256 < n1) || n2 == 0 || decide (1024 < n2) else decide (64 < n1) || decide (64 < n2)) ||
  decide (o1 < 16) || decide (o2 < 16) || decide (b.length < o1 + w1 * n1) || decide (b.length < o2 + w2 * n2) ||
  (decide (o1 < o2 + w2 * n2) && decide (o2 < o1 + w1 * n1))

/-- The first array of a container. -/
def contA (ty : Nat) (b : List Byte) : List (List Byte) := cutB (contSizes ty).1 (uN b 2 2) (b.drop (uN b 8 4))

/-- The second array of a container. -/
def contB (ty : Nat) (b : List Byte) : List (List Byte) := cutB (contSizes ty).2 (uN b 4 2) (b.drop (uN b 12 4))

/-- Every byte of a container outside its header and its arrays is zero (R55). -/
def contPad (ty : Nat) (b : List Byte) : Bool :=
  let (w1, w2) := contSizes ty
  let inA (k a n : Nat) : Bool := decide (a ≤ k) && decide (k < a + n)
  b.zipIdx.all (fun (p : Byte × Nat) => p.1 == 0 || decide (p.2 < 16) || inA p.2 (uN b 8 4) (w1 * uN b 2 2) ||
    inA p.2 (uN b 12 4) (w2 * uN b 4 2))

/-- A segment header breaks R76 by its own fields. -/
def segBad (b : List Byte) : Bool :=
  uN b 4 4 % 64 != 0 || decide (524287 < uN b 4 4) || uN b 8 4 == 0 || decide (524288 < uN b 8 4) ||
  decide (524288 < uN b 4 4 + uN b 8 4) || decide (31 < uN b 12 1) || uN b 13 3 != 0

/-- The segments of a PROG section; or the position of the first faulty header (`inl`); `none` of the list when the segments do
not fill the section, or a padding byte is not zero. -/
def segsOf : Nat → Nat → List Byte → Nat ⊕ Option (List ProgSeg)
  | 0, _, b => .inr (if b.isEmpty then some [] else none)
  | n + 1, ix, b =>
    if b.length < 16 then .inr none
    else if segBad b then .inl ix
    else
      let k := uN b 8 4
      if b.length < 16 + up8 k || !zerosB b (16 + k) (up8 k - k) then .inr none
      else match segsOf n (ix + 1) (b.drop (16 + up8 k)) with
        | .inl i => .inl i
        | .inr none => .inr none
        | .inr (some l) =>
          .inr (some ({ clusters := uN b 0 4, off := uN b 4 4, inst := uN b 12 1, code := (b.drop 16).take k } :: l))

end Sys2Proof.Machine
end

