-- ==== Sys2Proof/Machine/ImgCheck.lean ====
section
/-! DEFINITION. The rules of a structure image that involve several records: those of one section, and those across sections
(02_structure_image.md R61 to R78, 04_parse_classify.md R128, 13 R354). Each answers the index of the record at which the breach is
found (R553). -/

namespace Sys2Proof.Machine

/-- The first index at which `f` finds a fault. -/
def firstIx {α : Type} (l : List α) (f : Nat → α → Option Nat) : Option Nat := l.zipIdx.findSome? (fun p => f p.2 p.1)

/-- The index itself where a test holds. -/
def atIx (b : Bool) (i : Nat) : Option Nat := if b then some i else none

/-- The first record whose key an earlier one has. -/
def dupAt {α : Type} (key : α → Nat) (l : List α) : Option Nat :=
  firstIx l (fun i a => atIx ((l.take i).any (fun b => key b == key a)) i)

/-- Two half-open ranges overlap; an empty one overlaps none. -/
def overlap (a b : Nat × Nat) : Bool := decide (a.1 < a.2) && decide (b.1 < b.2) && decide (a.1 < b.2) && decide (b.1 < a.2)

/-- The first record whose range overlaps an earlier one's. -/
def spanAt {α : Type} (rng : α → Nat × Nat) (l : List α) : Option Nat :=
  firstIx l (fun i a => atIx ((l.take i).any (fun b => overlap (rng b) (rng a))) i)

/-- The first index from which a running sum exceeds a limit. -/
def sumAt {α : Type} (f : α → Nat) (lim : Nat) (l : List α) : Option Nat :=
  firstIx l (fun i _ => atIx (decide (lim < ((l.take (i + 1)).map f).sum)) i)

/-- The least number below `n` that a list lacks. -/
def missing (n : Nat) (l : List Nat) : Option Nat := (List.range n).find? (fun k => !l.contains k)

/-- The first fault of a list. -/
def firstOf {α : Type} (l : List (Option α)) : Option α := l.findSome? id

/-- A posy's record and its index. -/
def pFind (l : List PosyRec) (x : Nat) : Option (PosyRec × Nat) := l.zipIdx.find? (fun p => p.1.id == x)

/-- The records from a posy upward, by index; at most `n`. -/
def pUp (l : List PosyRec) : Nat → Nat → List Nat
  | 0, _ => []
  | n + 1, x => match pFind l x with
    | none => []
    | some (r, i) => i :: (if r.parent = 255 then [] else pUp l n r.parent)

/-- The indices of the cycle a posy is its own ancestor by. -/
def pCycle (l : List PosyRec) (x : Nat) : Option Nat :=
  match pFind l x with
  | none => none
  | some (r, i) =>
    if r.parent = 255 then none
    else
      let up := pUp l l.length r.parent
      if up.contains i then some ((up.takeWhile (· != i)).foldl max i) else none

/-- The depth of a posy and the latest record of its deepest chain (R61). -/
def pDeep (l : List PosyRec) : Nat → Nat → Nat × Nat
  | 0, _ => (1, 0)
  | n + 1, x => match pFind l x with
    | none => (0, 0)
    | some (r, i) =>
      if !r.isSet then (1, i)
      else
        let ds := (l.filter (fun c => c.parent == x && c.parent != 255)).map (fun c => pDeep l n c.id)
        let best := ds.foldl (fun (a b : Nat × Nat) => if a.1 < b.1 then b else a) (0, 0)
        (best.1 + 1, max i best.2)

/-- The cores within a posy. -/
def pCores (l : List PosyRec) : Nat → Nat → List Nat
  | 0, _ => []
  | n + 1, x => match pFind l x with
    | none => []
    | some (r, _) =>
      if !r.isSet then [r.core]
      else ((l.filter (fun c => c.parent == x && c.parent != 255)).map (fun c => pCores l n c.id)).flatten

/-- The root of a posy. -/
def pRoot (l : List PosyRec) (x : Nat) : Nat :=
  match (pUp l 255 x).getLast? with
  | some i => match l[i]? with
    | some r => r.id
    | none => x
  | none => x

/-- The rules of R61 and R63 over several POSY records. -/
def posyRules (l : List PosyRec) : Option Nat :=
  firstOf [
    dupAt (·.id) l,
    firstIx l (fun i r => if r.parent = 255 then none else match pFind l r.parent with
      | some (p, j) => if p.isSet then none else some (max i j)
      | none => some i),
    firstIx l (fun _ r => pCycle l r.id),
    firstIx l (fun i r => match pFind l (pRoot l r.id) with
      | some (p, j) => if p.inst = r.inst then none else some (max i j)
      | none => some i),
    firstIx l (fun i r =>
      if !r.isSet then none
      else
        let ks := (l.zipIdx.filter (fun p => p.1.parent == r.id && p.1.parent != 255)).map (·.2)
        if 2 ≤ ks.length ∧ ks.length ≤ 64 then none else some ((ks.take 65).foldl max i)),
    firstIx l (fun _ r => let d := pDeep l 10 r.id; if 8 < d.1 then some d.2 else none),
    firstIx l (fun i r => atIx (!r.isSet && (l.take i).any (fun q => !q.isSet && q.core == r.core)) i),
    firstIx l (fun i r => atIx (!(pCores l 10 r.id).contains r.supCore) i),
    firstIx l (fun i r => atIx ((List.range 8).all (fun t =>
      (l.take (i + 1)).any (fun q => q.supCore == r.supCore && q.supThread == t))) i),
    firstIx l (fun i r => atIx (!r.isSet && (l.take i).any (fun q => !q.isSet && q.core / 4 == r.core / 4 && q.inst != r.inst)) i)]

/-- The rules of R67 over several INST records. -/
def instRules (l : List InstRec) : Option Nat :=
  firstOf [
    dupAt (·.inst) l,
    firstIx l (fun i r => atIx (r.vf != 0 && (l.take i).any (fun q => q.vf == r.vf)) i),
    firstIx l (fun i r => atIx ((l.take i).any (fun q => (q.amBanks &&& r.amBanks) != 0)) i),
    firstIx l (fun i r => atIx ((l.take i).any (fun q => (q.pools &&& r.pools) != 0)) i),
    spanAt (fun r => (r.qBase, r.qBase + r.qCount)) l,
    spanAt (fun r => (r.subBase, r.subBase + r.subCount)) l,
    spanAt (fun r => (r.polBase, r.polBase + r.polCount)) l,
    spanAt (fun r => (r.dramBase, r.dramBase + r.dramSize)) l,
    sumAt (·.contexts) 8192 l, sumAt (·.timers) 16384 l]

/-- LPORT values are unique, and so are MACs (R68). -/
def portRules (l : List PortRec) : Option Nat :=
  firstOf [dupAt (·.mac) l,
    firstIx l (fun i r => atIx (r.lport != 255 && (l.take i).any (fun q => q.lport == r.lport)) i)]

/-- The shared units on the device (R69). -/
def unitSupply : List Nat := [16, 32, 16, 32, 16, 32, 16]

/-- One record per cluster, within the supply (R69). -/
def copaRules (l : List (Nat × Nat)) : Option Nat :=
  firstOf (dupAt (·.1) l :: unitSupply.zipIdx.map (fun (p : Nat × Nat) => sumAt (fun (r : Nat × Nat) => b2n (r.2.testBit p.2)) p.1 l))

/-- 1 to 4 disjoint ranges for an instance (R70). -/
def oflwRules (l : List OflwRec) : Option Nat :=
  firstOf [firstIx l (fun i r => atIx (decide (4 ≤ ((l.take i).filter (fun q => q.inst == r.inst)).length)) i),
    spanAt (fun r => (r.base, r.base + r.count)) l]

/-- The key of a node. -/
def qKey (r : QhieRec) : Nat := r.level * 65536 + r.node

/-- Each node once (R72). -/
def qhieDup (l : List QhieRec) : Option Nat := dupAt qKey l

/-- The rules of R72 over several QHIE records. -/
def qhieRules (l : List QhieRec) : Option Nat :=
  firstOf [
    qhieDup l,
    firstIx l (fun i r =>
      if 2 ≤ r.level then none
      else match l.zipIdx.find? (fun p => p.1.level == r.level + 1 && p.1.node == r.parent) with
        | some (p, j) => if p.inst = r.inst then none else some (max i j)
        | none => some i),
    firstIx l (fun i r => atIx (r.level != 0 && !l.any (fun q => q.level + 1 == r.level && q.parent == r.node)) i)]

/-- The extent of a table in its memory, in bytes or entries. -/
def tgeoSpan (r : TgeoRec) : Nat × Nat :=
  if r.kind = 0 then (r.base * 65536, r.base * 65536 + r.size * 4 * 8 * 2 ^ r.width) else (r.base, r.base + r.size)

/-- The rules of R73, R74 and R354 over several TGEO records. -/
def tgeoRules (l : List TgeoRec) : Option Nat :=
  let lrn := l.zipIdx.find? (fun p => p.1.kind == 2)
  firstOf [
    dupAt (·.table) l,
    firstIx l (fun i r => match lrn with
      | some (_, j) => if r.kind = 0 && decide (256 * 65536 < (tgeoSpan r).2) then some (max i j) else none
      | none => none),
    firstIx l (fun i r => atIx ((l.take i).any (fun q => q.kind == r.kind && overlap (tgeoSpan q) (tgeoSpan r))) i)]

/-- The rules of R125, R126 and R128 over the records of a parse graph, with the index of R553. -/
def graphRules (g : Graph) : Option Nat :=
  let ty (k : Nat) : Option ParseType := g.types.find? (fun t => t.id == k)
  firstOf [
    dupAt (·.id) g.types,
    match g.types.zipIdx.find? (fun p => p.1.id == 0) with
    | none => some (2 * 2 ^ 22)
    | some (t, i) => atIx (t.kind != 1) i,
    (firstIx g.edges (fun i e => match ty e.src with
      | none => some i
      | some t => atIx ((ty e.dst).isNone || (t.selWidth == 0 && e.mask != 0)) i)).map (· + 2 ^ 22)]

/-- The segments written to one cluster do not overlap (R76). -/
def progRules (l : List ProgSeg) : Option Nat :=
  firstIx l (fun i s => atIx ((l.take i).any (fun q =>
    (q.clusters &&& s.clusters) != 0 && overlap (q.off, q.off + q.code.length) (s.off, s.off + s.code.length))) i)

/-- The logical ports of a governor section are unique (17 R466). -/
def govRules (ports : List (List Byte)) : Option Nat := dupAt (fun b => uN b 0 1) ports

/-- The roots of the posy trees. -/
def rootsOf (l : List PosyRec) : List PosyRec := l.filter (fun r => r.parent == 255)

/-- A service node's parent is a port its instance may send to (R72). -/
def svcPortOk (m : Image) (r : QhieRec) : Bool :=
  let p := r.parent
  if p < 64 then m.port.any (fun q => q.lport == p && q.inst == r.inst)
  else if p = 64 then r.inst == 0
  else if p ≤ 96 then m.inst.any (fun q => q.inst == r.inst && q.vf == p - 64)
  else p == 120 || p == 121 || p == 122

/-- The least instance a section uses that has no INST record (R78). -/
def instMissing (m : Image) : Option Nat :=
  let used := m.posy.map (·.inst) ++ (m.port.filter (fun r => r.lport != 255)).map (·.inst) ++ m.oflw.map (·.inst) ++
    m.qhie.map (·.inst) ++ m.tgeo.map (·.inst) ++ m.prog.map (·.inst)
  (List.range 32).find? (fun i => used.contains i && !m.inst.any (fun r => r.inst == i))

/-- An entry address lies in a segment of a cluster. -/
def entryIn (m : Image) (k a : Nat) : Bool :=
  m.prog.any (fun g => g.clusters.testBit k && decide (g.off ≤ a) && decide (a < g.off + g.code.length))

/-- A breach across sections: the section, the record index, and whether that is the key of a missing record (R553). -/
structure Breach where
  ty  : Nat
  ix  : Nat
  key : Bool
  deriving DecidableEq, Repr

/-- The rules across sections (R78, R82 step 9), and the DRAM ranges against the usable capacity of `cap` MiB (R67). -/
def crossRules (m : Image) (cap : Nat) : Option Breach :=
  let inst (i : Nat) : Option InstRec := m.inst.find? (fun r => r.inst == i)
  let roots := rootsOf m.posy
  let tag (ty : Nat) (o : Option Nat) : Option Breach := o.map (fun i => ⟨ty, i, false⟩)
  let lack (ty : Nat) (o : Option Nat) : Option Breach := o.map (fun i => ⟨ty, i, true⟩)
  firstOf [
    lack 3 (instMissing m),
    tag 2 (firstIx m.mode (fun i r => atIx (!roots.any (fun p => p.id == r.root)) i)),
    tag 3 (firstIx m.inst (fun i r => atIx (!roots.any (fun p => p.id == r.root && p.inst == r.inst)) i)),
    tag 3 (roots.findSome? (fun p => firstIx m.inst (fun i r => atIx (r.inst == p.inst && r.root != p.id) i))),
    lack 2 ((List.range 255).find? (fun x => roots.any (fun p => p.id == x) && !m.mode.any (fun r => r.root == x))),
    lack 6 ((List.range 32).find? (fun i => m.inst.any (fun r => r.inst == i) && !m.oflw.any (fun r => r.inst == i))),
    tag 7 (firstIx m.qhie (fun i r => match inst r.inst with
      | none => some i
      | some n => atIx (
          if r.level = 0 then !(decide (n.qBase ≤ r.node) && decide (r.node < n.qBase + n.qCount))
          else if r.level = 1 then !(decide (n.subBase ≤ r.node) && decide (r.node < n.subBase + n.subCount))
          else !svcPortOk m r) i)),
    tag 8 (firstIx m.tgeo (fun i r => match inst r.inst with
      | none => some i
      | some n => atIx (r.kind == 1 && (List.range 16).any (fun b =>
          !n.amBanks.testBit b && overlap (r.base, r.base + r.size) (16384 * b, 16384 * (b + 1)))) i)),
    tag 10 (firstIx m.prog (fun i g => atIx (m.posy.any (fun p =>
      !p.isSet && g.clusters.testBit (p.core / 4) && p.inst != g.inst)) i)),
    m.posy.findSome? (fun p =>
      if p.isSet then none
      else match m.mode.zipIdx.find? (fun q => q.1.root == pRoot m.posy p.id) with
        | none => none
        | some (r, j) =>
          let k := p.core / 4
          if entryIn m k r.worker && entryIn m k r.sup then none
          else match (m.prog.zipIdx.filter (fun g => g.1.clusters.testBit k)).getLast? with
            | some (_, i) => some ⟨10, i, false⟩
            | none => some ⟨2, j, false⟩),
    tag 3 (firstIx m.inst (fun i r => atIx (decide (cap < r.dramBase + r.dramSize)) i))]

end Sys2Proof.Machine
end

