-- ==== Sys2Proof/Machine/ImgLoad.lean ====
section
/-! DEFINITION. Judging an image: header, envelope, signer, signature, anti-rollback, base, directory, sections and the rules
across them, in the order of R82 (02_structure_image.md R55 to R59, R79 to R86, 17_secrecy.md R445 to R450, 19 R509). -/

namespace Sys2Proof.Machine

/-- The present lifecycle state, fixed at boot: 0 BLANK, 1 PROVISIONED, 2 FIELD, 3 RETIRED (17 R447). -/
def lcState (s : State) : Nat := rf s 0x201400 17 16

/-- A triplet of fuses reads 1 (17 R445). -/
def triplet (s : State) (a : Nat) : Bool := decide (2 ≤ b2n (fuseBit s a) + b2n (fuseBit s (a + 1)) + b2n (fuseBit s (a + 2)))

/-- The check code of a field fails: a bit of FUS_FIELDSTS (17 R445, R470). -/
def fieldFails (s : State) (k : Nat) : Bool := rb s 0x201420 k

/-- The value of an anti-rollback thermometer (17 R445). -/
def arbValue (s : State) (k : Nat) : Nat :=
  match ((List.range 64).reverse).find? (fun j => fuseBit s (1344 + 64 * k + j)) with
  | some j => j + 1
  | none => 0

/-- Instances that INST_CAP allows (17 R444, R445). -/
def instCap (s : State) : Nat :=
  if fieldFails s 11 then 1
  else
    let n := fuseNum s 2048 5
    if n = 0 then 32 else n

/-- The CRY unit is unavailable (17 R444, R448). -/
def cryOff (s : State) : Bool := fuseBit s 2054 || lcState s == 3

/-- 32 bytes of fuses from bit `a`: byte 0 in the lowest bits (DEDUCED from FUSE_VALUE of 17 R453). -/
def fuseBytes (s : State) (a : Nat) : List Byte := (List.range 32).map (fun j => by8 (fuseNum s (a + 8 * j) 8))

/-- An owner slot is usable: programmed, not revoked, its check code holds (17 R447). -/
def ownerUsable (s : State) (k : Nat) : Bool :=
  (List.range 256).any (fun j => fuseBit s (288 + 256 * k + j)) && !triplet s (1312 + 4 * k) && !fieldFails s (1 + k)

/-- The fused digest of a signer slot. -/
def slotHash (s : State) (sg : Nat) : List Byte := if sg = 16 then fuseBytes s 32 else fuseBytes s (288 + 256 * sg)

/-- A signer is accepted for an image in the present lifecycle state (17 R448). -/
def imgSigner (s : State) (fw : Bool) (sg : Nat) : Bool :=
  match lcState s with
  | 0 => sg == 16
  | 1 => sg == 16 || (decide (sg < 4) && ownerUsable s sg)
  | 2 => decide (sg < 4) && ownerUsable s sg
  | _ => fw && sg == 16

/-- A failure with no section. -/
def lerr (st : Nat) (bad : Bool) : Option LErr := if bad then some ⟨st, 0, 0⟩ else none

/-- The fields from SIGNER to the end of the header (R56, 19 R509). -/
def hdrTail (b : List Byte) : Option LErr :=
  lerr 1 (!(decide (uN b 24 1 < 4) || uN b 24 1 == 16) || decide (3 < uN b 25 1) || decide (64 < uN b 26 1) || !zerosB b 27 37)

/-- Step 1 for a structure image of KIND `kind` (R56, R82). -/
def imgHeader (kind : Nat) (b : List Byte) : Option LErr :=
  let n := uN b 11 1
  let tl := uN b 12 4
  firstOf [
    lerr 1 (decide (b.length < 64) || uN b 0 4 != 0x49534C49 || uN b 4 2 != 1 || uN b 6 1 != kind || uN b 7 1 != 0),
    lerr 2 (uN b 8 2 != 0x4816 || uN b 10 1 != 0xB0),
    lerr 1 (n == 0 || decide (11 < n)),
    lerr 3 (tl % 8 != 0 || decide (tl < 64 + 16 * n) || decide ((if kind = 1 then 0x1000000 else 0x400000) < tl)),
    lerr 1 (uN b 16 4 == 0 || (if kind = 1 then uN b 20 4 != 0 else uN b 20 4 == 0)),
    hdrTail b]

/-- Step 1 for steward firmware (19 R509). -/
def fwHeader (b : List Byte) : Option LErr :=
  let tl := uN b 12 4
  firstOf [
    lerr 1 (decide (b.length < 64) || uN b 0 4 != 0x46534C49 || uN b 4 2 != 1 || uN b 6 1 != 3 || uN b 7 1 != 0),
    lerr 2 (uN b 8 2 != 0x4816 || uN b 10 1 != 0xB0),
    lerr 1 (uN b 11 1 != 0),
    lerr 3 (tl % 8 != 0 || decide (tl < 64) || decide (0x70000 < tl)),
    lerr 1 (uN b 20 4 % 4 != 0 || decide (tl ≤ uN b 20 4)),
    hdrTail b]

/-- The signed region of an image (R54). -/
def signedOf (b : List Byte) : List Byte := b.take (uN b 12 4)

/-- The signing envelope of an image (R79). -/
def envOf (b : List Byte) : List Byte := b.drop (uN b 12 4)

/-- Step 2: MAGIC and lengths of the envelope (R79, R82). -/
def envCheck (b : List Byte) : Option LErr :=
  let e := envOf b
  let n := uN e 4 4
  let k := uN e 0x44 4
  firstOf [
    lerr (1 + Config.envStatus % 11) (uN e 0 4 != 0x47534C49),
    lerr 3 (n % 8 != 0 || decide (4168 < n) || k == 0 || decide (4096 < k) || n != up8 (0x48 + k) || decide (e.length < n) ||
      !zerosB e (0x48 + k) (n - (0x48 + k)))]

/-- Steps 3 to 5: the signer, the signature and anti-rollback (R82, 17 R449, R450). -/
def trustCheck (s : State) (fw : Bool) (b : List Byte) : Option LErr :=
  let e := envOf b
  let sg := uN b 24 1
  let pub := (e.drop 8).take 60
  firstOf [
    lerr 4 (!imgSigner s fw sg || sha256 pub != slotHash s sg),
    lerr 5 (!hssVerify pub ((e.drop 0x48).take (uN e 0x44 4)) (signedOf b)),
    lerr 6 (decide (uN b 26 1 < arbValue s (uN b 25 1)))]

/-- Steps 1 to 5 for a structure image (R82). -/
def imgHead (s : State) (kind : Nat) (b : List Byte) : Option LErr := firstOf [imgHeader kind b, envCheck b, trustCheck s false b]

/-- Steps 1 to 5 for steward firmware (19 R509). -/
def fwHead (s : State) (b : List Byte) : Option LErr := firstOf [fwHeader b, envCheck b, trustCheck s true b]

/-- A directory entry, or its fault (R57, R59, R82 step 7): `stop` the end of the previous section, `last` its type. -/
def dirEntry (b : List Byte) (ix stop last : Nat) : LErr ⊕ DirEnt :=
  let d := b.drop (64 + 16 * ix)
  let ty := uN d 0 1
  let form := uN d 2 1
  let off := uN d 4 4
  let len := uN d 8 4
  let n := uN d 12 4
  let w := recSize ty form
  if ty == 0 || 11 < ty || uN d 1 1 != 1 || 1 < form || (form == 1 && !(ty == 1 || ty == 4 || ty == 7)) || uN d 3 1 != 0 then
    .inl ⟨7, ty, ix⟩
  else if off % 8 != 0 || len % 8 != 0 || len == 0 || off < stop || uN b 12 4 < off + len ||
      (if w != 0 then len != up8 (n * w) else if ty = 10 then n == 0 else n != 1) then .inl ⟨3, ty, ix⟩
  else if ty ≤ last then .inl ⟨7, ty, ix⟩
  else .inr ⟨ix, ty, form, off, len, n⟩

/-- The directory's entries from `ix` on, `n` of them. -/
def dirWalk (b : List Byte) : Nat → Nat → Nat → Nat → LErr ⊕ List DirEnt
  | 0, _, _, _ => .inr []
  | n + 1, ix, stop, last =>
    match dirEntry b ix stop last with
    | .inl e => .inl e
    | .inr d => match dirWalk b n (ix + 1) (d.off + d.len) d.ty with
      | .inl e => .inl e
      | .inr l => .inr (d :: l)

/-- Every byte of the signed region outside the header, the directory and the listed sections is zero (R55). -/
def gapsZero (b : List Byte) (l : List DirEnt) : Bool :=
  ((signedOf b).zipIdx.drop (64 + 16 * uN b 11 1)).all (fun (p : Byte × Nat) =>
    p.1 == 0 || l.any (fun d => decide (d.off ≤ p.2) && decide (p.2 < d.off + d.len)))

/-- Step 7: the directory (R82); for a full image also REQUIRE_GOVC and GOVC_SIGNERS (17 R449). -/
def dirCheck (s : State) (full : Bool) (b : List Byte) : LErr ⊕ List DirEnt :=
  match dirWalk b (uN b 11 1) 0 (64 + 16 * uN b 11 1) 0 with
  | .inl e => .inl e
  | .inr l =>
    if !gapsZero b l then .inl ⟨3, 0, 0⟩
    else if full then
      match ((List.range 11).drop 1).find? (fun t => !l.any (fun d => d.ty == t)) with
      | some t => .inl ⟨7, t, 0xFFFFFF⟩
      | none =>
        let gov := l.any (fun d => d.ty == 11)
        let sg := uN b 24 1
        if !gov && fuseBit s 1618 then .inl ⟨7, 11, 0xFFFFFF⟩
        else if gov && !fuseBit s (1619 + (if sg = 16 then 4 else sg)) then .inl ⟨4, 0, 0⟩
        else .inr l
    else match l.find? (fun d => d.form == 1 || d.ty == 11) with
      | some d => .inl ⟨7, d.ty, d.ix⟩
      | none => .inr l

/-- An image whose records have been read. -/
structure PImg where
  img   : Image
  graph : Graph
  /-- The port and prefix records of a GOVC section. -/
  gov   : Option (List (List Byte) × List (List Byte))
  /-- The types of its sections, ascending. -/
  types : List Nat
  /-- The nodes and tables a partial image deletes (R85). -/
  delQ  : List Nat
  delT  : List Nat
  /-- By section type, the basic record from which each expert record was expanded (R88). -/
  org   : List (Nat × List Nat)
  deriving DecidableEq, Repr

/-- An image of which nothing has been read. -/
def PImg.init : PImg := { img := Image.none, graph := ⟨[], []⟩, gov := none, types := [], delQ := [], delT := [], org := [] }

/-- The record a reader is told of: the basic record of an expanded one (R88). -/
def placeIx (p : PImg) (ty i : Nat) : Nat :=
  match mfind p.org ty with
  | some l => (l[i]?).getD i
  | none => i

/-- The deletion of a node or of a table: every field but its key is zero (R85). -/
def delRec (ty : Nat) (b : List Byte) : Bool :=
  match ty with
  | 7 => zerosB b 1 3 && zerosB b 8 4 && decide (uN b 0 1 ≤ 2)
  | 8 => zerosB b 1 15 && decide (uN b 0 1 ≤ 254)
  | _ => false

/-- The rules over several records of one section (R82 step 8). A partial section is judged by what its own records decide; the
rest is judged over the resulting structure at step 9. -/
def secRules (full : Bool) (ty : Nat) (m : Image) : Option Nat :=
  match ty with
  | 1 => posyRules m.posy
  | 2 => dupAt (·.root) m.mode
  | 3 => instRules m.inst
  | 4 => portRules m.port
  | 5 => copaRules m.copa
  | 6 => oflwRules m.oflw
  | 7 => if full then qhieRules m.qhie else qhieDup m.qhie
  | 8 => tgeoRules m.tgeo
  | 10 => progRules m.prog
  | _ => none

/-- The key of the lowest required record that a section of a full image lacks (R66, R68, R69, R90). -/
def secMissing (ty : Nat) (m : Image) : Option Nat :=
  match ty with
  | 3 => if m.inst.any (fun r => r.inst == 0) then none else some 0
  | 4 => missing 64 (m.port.map (·.mac))
  | 5 => missing 32 (m.copa.map (·.1))
  | _ => none

/-- The records of a fixed-size section put into an image. -/
def putRecs (ty : Nat) (l : List (List Byte)) (m : Image) : Image :=
  match ty with
  | 1 => { m with posy := l.map toPosy }
  | 2 => { m with mode := l.map toMode }
  | 3 => { m with inst := l.map toInst }
  | 4 => { m with port := l.map toPort }
  | 5 => { m with copa := l.map toCopa }
  | 6 => { m with oflw := l.map toOflw }
  | 7 => { m with qhie := l.map toQhie }
  | 8 => { m with tgeo := l.map toTgeo }
  | _ => m

/-- Two basic records of one section collide: the later one (R88). -/
def basicClash (ty : Nat) (l : List (List Byte)) : Option Nat :=
  match ty with
  | 1 => spanAt (fun b => (uN b 1 1, uN b 1 1 + uN b 2 1)) l
  | 4 => dupAt (fun b => uN b 0 1) l
  | _ => none

/-- Expand the basic records of a section (R88 stage 3), or the record at which a range is exhausted (R91). -/
def expandSec (ty : Nat) (m : Image) (l : List (List Byte)) : List (Nat × List Byte) × Option Nat :=
  match ty with
  | 1 => (basicPosy 0 0 l, none)
  | 4 => (basicPort l, none)
  | _ => basicQhie (fun i => (m.inst.find? (fun r => r.inst == i)).map (fun r => (r.subBase, r.subCount, r.qBase, r.qCount))) 0 0 [] l

/-- Step 8 for a section of fixed record size, `l` its expert records with the index each is reported by. -/
def secFixed (e : RecEnv) (full : Bool) (d : DirEnt) (l : List (Nat × List Byte)) (p : PImg) : LErr ⊕ PImg :=
  let del := if full then [] else (l.filter (fun r => delRec d.ty r.2)).map (·.2)
  let live := l.filter (fun r => full || !delRec d.ty r.2)
  match live.find? (fun r => recBad e d.ty r.2) with
  | some r => .inl ⟨8, d.ty, r.1⟩
  | none =>
    let m := putRecs d.ty (live.map (·.2)) p.img
    match secRules full d.ty m with
    | some i => .inl ⟨9, d.ty, ((live.map (·.1))[i]?).getD i⟩
    | none =>
      match (if full then secMissing d.ty m else none) with
      | some k => .inl ⟨9, d.ty, k⟩
      | none =>
        .inr { p with
          img := m, types := p.types ++ [d.ty], org := mins p.org d.ty (live.map (·.1)),
          delQ := if d.ty = 7 then del.map (fun b => uN b 0 1 * 65536 + uN b 4 4) else p.delQ,
          delT := if d.ty = 8 then del.map (fun b => uN b 0 1) else p.delT }

/-- Step 8 for one section (R82, R88). -/
def secCheck (e : RecEnv) (full : Bool) (b : List Byte) (d : DirEnt) (p : PImg) : LErr ⊕ PImg :=
  let body := (b.drop d.off).take d.len
  let w := recSize d.ty d.form
  let pads : LErr := ⟨3, d.ty, d.ix⟩
  if w != 0 then
    let l := cutB w d.count body
    let padOk := zerosB body (w * d.count) (d.len - w * d.count)
    if d.form = 1 then
      match firstIx l (fun i r => atIx (basicBad d.ty r) i) with
      | some i => .inl ⟨8, d.ty, i⟩
      | none =>
        if !padOk then .inl pads
        else match basicClash d.ty l, (if d.ty = 4 then missing 4 (l.map (fun r => uN r 0 1)) else none) with
          | some i, _ => .inl ⟨9, d.ty, i⟩
          | none, some k => .inl ⟨9, d.ty, k⟩
          | none, none => match expandSec d.ty p.img l with
            | (_, some i) => .inl ⟨9, d.ty, i⟩
            | (x, none) => secFixed e full d x p
    else
      let x := l.zipIdx.map (fun (r : List Byte × Nat) => (r.2, r.1))
      match (if padOk then none else x.find? (fun r => recBad e d.ty r.2 && (full || !delRec d.ty r.2))) with
      | some r => .inl ⟨8, d.ty, r.1⟩
      | none => if padOk then secFixed e full d x p else .inl pads
  else if d.ty = 10 then
    match segsOf d.count 0 body with
    | .inl i => .inl ⟨8, 10, i⟩
    | .inr none => .inl pads
    | .inr (some l) =>
      let m := { p.img with prog := l }
      match progRules l with
      | some i => .inl ⟨9, 10, i⟩
      | none => .inr { p with img := m, types := p.types ++ [10] }
  else if contBad d.ty body then .inl ⟨8, d.ty, 2 * 2 ^ 22⟩
  else
    let xs := contA d.ty body
    let ys := contB d.ty body
    match firstIx xs (fun i r => atIx (if d.ty = 9 then ptypeBad r else govPortBad r) i),
        firstIx ys (fun i r => atIx (if d.ty = 9 then pedgeBad r else govPfxBad r) i) with
    | some i, _ => .inl ⟨8, d.ty, i⟩
    | none, some i => .inl ⟨8, d.ty, 2 ^ 22 + i⟩
    | none, none =>
      if !contPad d.ty body then .inl pads
      else if d.ty = 9 then
        let g : Graph := ⟨xs.map toPtype, ys.map toPedge⟩
        match graphRules g with
        | some i => .inl ⟨9, 9, i⟩
        | none => .inr { p with graph := g, types := p.types ++ [9] }
      else match govRules xs with
        | some i => .inl ⟨9, 11, i⟩
        | none => .inr { p with gov := some (xs, ys), types := p.types ++ [11] }

/-- Step 8 over the sections in directory order. -/
def secWalk (e : RecEnv) (full : Bool) (b : List Byte) : List DirEnt → PImg → LErr ⊕ PImg
  | [], p => .inr p
  | d :: t, p => match secCheck e full b d p with
    | .inl x => .inl x
    | .inr p => secWalk e full b t p

/-- What the record check of the device looks at. -/
def recEnv (s : State) : RecEnv := { cap := instCap s, noCry := cryOff s }

/-- Steps 7 and 8 (R82). -/
def imgBody (s : State) (full : Bool) (b : List Byte) : LErr ⊕ PImg :=
  match dirCheck s full b with
  | .inl e => .inl e
  | .inr l => secWalk (recEnv s) full b l PImg.init

/-- Steps 7 to 9 for a full image (R82). -/
def fullCheck (s : State) (b : List Byte) : LErr ⊕ PImg :=
  match imgBody s true b with
  | .inl e => .inl e
  | .inr p => match crossRules p.img (rv s 0x3E01040).toNat with
    | some x => .inl ⟨9, x.ty, if x.key then x.ix else placeIx p x.ty x.ix⟩
    | none => .inr { p with img := { p.img with valid := true, serial := uN b 16 4 } }

/-- The records of a list that a partial section does not name, then its own (R85). -/
def mergeBy {α : Type} (key : α → Nat) (gone : List Nat) (old new : List α) : List α :=
  old.filter (fun r => !(new.any (fun n => key n == key r) || gone.contains (key r))) ++ new

/-- The structure that results from a partial image (R85). -/
def mergeImg (m : Image) (p : PImg) : Image :=
  let n := p.img
  let cl := n.prog.foldl (fun a g => a ||| g.clusters) 0
  let keep := (m.prog.map (fun g => { g with clusters := g.clusters &&& (2 ^ 32 - 1 - cl) })).filter (fun g => g.clusters != 0)
  { m with
    posy := m.posy.filter (fun r => !n.posy.any (fun x => x.inst == r.inst)) ++ n.posy,
    mode := mergeBy (·.root) [] m.mode n.mode, inst := mergeBy (·.inst) [] m.inst n.inst,
    port := mergeBy (·.mac) [] m.port n.port, copa := mergeBy (·.1) [] m.copa n.copa,
    oflw := m.oflw.filter (fun r => !n.oflw.any (fun x => x.inst == r.inst)) ++ n.oflw,
    qhie := mergeBy qKey p.delQ m.qhie n.qhie, tgeo := mergeBy (·.table) p.delT m.tgeo n.tgeo, prog := keep ++ n.prog }

/-- How many records of a section stand before the partial image's own in the resulting structure. -/
def keptOf (r n : Image) (ty : Nat) : Nat :=
  match ty with
  | 1 => r.posy.length - n.posy.length
  | 2 => r.mode.length - n.mode.length
  | 3 => r.inst.length - n.inst.length
  | 4 => r.port.length - n.port.length
  | 5 => r.copa.length - n.copa.length
  | 6 => r.oflw.length - n.oflw.length
  | 7 => r.qhie.length - n.qhie.length
  | 8 => r.tgeo.length - n.tgeo.length
  | 10 => r.prog.length - n.prog.length
  | _ => 0

/-- The record index of a breach in the resulting structure: that of the partial image's own record, or of the section as a whole. -/
def partIx (r : Image) (p : PImg) (ty i : Nat) : Nat :=
  if keptOf r p.img ty ≤ i then placeIx p ty (i - keptOf r p.img ty) else 0xFFFFFF

/-- Step 9 for a partial image: every rule over several records, on the resulting structure (R78, R82). -/
def partCross (s : State) (p : PImg) : Option LErr :=
  let r := mergeImg s.img p
  match [1, 2, 3, 4, 5, 6, 7, 8, 10].findSome? (fun ty => (secRules true ty r).map (fun i => (ty, i))) with
  | some (ty, i) => some ⟨9, ty, partIx r p ty i⟩
  | none => (crossRules r (rv s 0x3E01040).toNat).map (fun x => ⟨9, x.ty, if x.key then x.ix else partIx r p x.ty x.ix⟩)

end Sys2Proof.Machine
end

