-- ==== Sys2Proof/Machine/Operands.lean ====
section
/-! DEFINITION. The operand forms and tag rules of Petal instructions (07_petal_encoding.md R218 to R223,
08_petal_core_ops.md R249, R252). Tag rules are judged in a tagged posy only: there a register is read with its tag, and
in a plain32 posy every register reads as INT and satisfies them. -/

namespace Sys2Proof.Machine

/-- The tag of register `r`. -/
def tagR (t : Thread) (r : Nat) : Nat := (mget t.g r TV.void).tag

/-- The value of register `r`. -/
def valR (t : Thread) (r : Nat) : Word := (mget t.g r TV.void).v

/-- The result tag of an addition of class TA; none is a breach (R218). -/
def taAdd (a b : Nat) : Option Nat :=
  if a = tINT && b = tINT then some tINT
  else if (a = tTIME && b = tINT) || (a = tINT && b = tTIME) then some tTIME
  else if (a = tHOFS && b = tINT) || (a = tINT && b = tHOFS) then some tHOFS
  else none

/-- The result tag of a subtraction of class TA (R218). -/
def taSub (a b : Nat) : Option Nat :=
  if a = tINT && b = tINT then some tINT
  else if a = tTIME && b = tINT then some tTIME
  else if a = tTIME && b = tTIME then some tINT
  else if a = tHOFS && b = tINT then some tHOFS
  else if a = tHOFS && b = tHOFS then some tINT
  else none

/-- The result tag of class TL for AND, OR and XOR (R218). -/
def tlTag (a b : Nat) : Option Nat :=
  if a = tINT && b = tINT then some tINT else if a = tBOOL && b = tBOOL then some tBOOL else none

/-- The pairs class TC accepts (R218). -/
def tcOk (a b : Nat) : Bool := a == b && (a == tINT || a == tBOOL || a == tTIME || a == tHOFS)

/-- The result tag of MIN, MAX, MINU and MAXU (08 R247). -/
def mmTag (a b : Nat) : Option Nat :=
  if a = tINT && b = tINT then some tINT else if a = tTIME && b = tTIME then some tTIME else none

/-- A tag class TM carries: 0x0 to 0x8, or VOID (R218). -/
def tmOk (a : Nat) : Bool := decide (a ≤ 8) || a == tVOID

/-- What an instruction reads and writes: `reads`, registers used as values (16 stands for FL); `moves`, registers it
carries under class TM, whose POISON raises no fault (R219); `dsts`, destination registers, in which a BUF may not be
overwritten (R220); `ok`, its tag rule on the thread's registers. -/
structure Opn where
  reads : List Nat
  moves : List Nat
  dsts  : List Nat
  ok    : Thread → Bool

/-- An instruction all of whose operands are INT (TI, TN). -/
def opInt (reads dsts : List Nat) : Opn :=
  { reads := reads, moves := [], dsts := dsts, ok := fun t => reads.all (fun r => r == 16 || tagR t r == tINT) }

/-- An instruction that reads no register. -/
def opNone (dsts : List Nat) : Opn := { reads := [], moves := [], dsts := dsts, ok := fun _ => true }

/-- The width in bytes a size prefix selects; a word when none is present (R222, R227). -/
def sizeBytes (f : Form) : Nat := if f.size = 1 then 1 else if f.size = 2 then 2 else 4

/-- Base plus displacement, formed without wrapping (08 R249). -/
def eaDisp (base imm : Word) : Int := (base.toNat : Int) + imm.toInt

/-- The sum of two registers, formed without wrapping (08 R249). -/
def eaSum (a b : Word) : Int := (a.toNat : Int) + (b.toNat : Int)

/-- A value tagged as plain32 mode keeps it: INT there, its own tag in a tagged posy (R223). -/
def tvOf (plain : Bool) (v : Word) (tag : Nat) : TV := { v := v, tag := if plain then tINT else tag }

/-- The copy of a value a move leaves in its destination. -/
def tvRead (plain : Bool) (t : Thread) (r : Nat) : TV := tvOf plain (valR t r) (tagR t r)

/-- After a move, a BUF source is VOID in a tagged posy (R221, R223). -/
def unBuf (plain : Bool) (r : Nat) (t : Thread) : Thread :=
  if !plain && tagR t r == tBUF then setG t r TV.void else t

end Sys2Proof.Machine
end

