-- ==== Sys2Proof/Machine/Flags.lean ====
section
/-! DEFINITION. The flag computations (07_petal_encoding.md R215, 08_petal_core_ops.md R246, R247). -/

namespace Sys2Proof.Machine

/-- A result with the flags an addition sets. -/
structure ALU where
  v : Word
  c : Bool
  o : Bool
  deriving DecidableEq, Repr

/-- a + b + cin: the carry out of bit 31, and signed overflow (R246). -/
def aluAdd (a b : Word) (cin : Bool) : ALU :=
  let r := a + b + b2w cin
  { v := r, c := decide (2 ^ 32 ≤ a.toNat + b.toNat + b2n cin), o := decide (r.toInt ≠ a.toInt + b.toInt + (b2n cin : Int)) }

/-- a − b − bin: the borrow, and signed overflow (R246). -/
def aluSub (a b : Word) (bin : Bool) : ALU :=
  let r := a - b - b2w bin
  { v := r, c := decide (a.toNat < b.toNat + b2n bin), o := decide (r.toInt ≠ a.toInt - b.toInt - (b2n bin : Int)) }

/-- Set Z, N, C and V from an addition or subtraction. -/
def setZNCV (r : ALU) (t : Thread) : Thread := { setZN r.v t with c := r.c, v := r.o }

/-- A shift left by the whole count: the result and the new C (R246, R247). -/
def shlOp (a : Word) (n : Nat) (c : Bool) : Word × Bool :=
  (if n < 32 then a <<< n else 0, if n = 0 then c else if n ≤ 32 then bit a (32 - n) else false)

/-- A shift right with zeros in. -/
def shrOp (a : Word) (n : Nat) (c : Bool) : Word × Bool :=
  (if n < 32 then a >>> n else 0, if n = 0 then c else if n ≤ 32 then bit a (n - 1) else false)

/-- A shift right with copies of bit 31 in. -/
def sarOp (a : Word) (n : Nat) (c : Bool) : Word × Bool :=
  (a.sshiftRight (min n 32), if n = 0 then c else if n ≤ 32 then bit a (n - 1) else bit a 31)

/-- Set Z, N and C from a shift. -/
def setZNC (r : Word × Bool) (t : Thread) : Thread := { setZN r.1 t with c := r.2 }

/-- A rotation left by the low five bits of the count. -/
def rolOp (a : Word) (n : Nat) : Word := a.rotateLeft (n % 32)

/-- The condition of BCC (R231). -/
def bccHolds (t : Thread) (k : Nat) : Bool :=
  match k with
  | 0 => t.n
  | 1 => !t.n
  | 2 => t.v
  | 3 => !t.v
  | 4 => t.n != t.v
  | 5 => t.n == t.v
  | 6 => t.z || t.n != t.v
  | 7 => !t.z && t.n == t.v
  | 8 => t.c || t.z
  | 9 => !t.c && !t.z
  | _ => false

/-- The predicate of an instruction holds (R227, R228). -/
def predHolds (t : Thread) (f : Form) : Bool :=
  match f.pred.val with
  | 1 => t.z
  | 2 => !t.z
  | 3 => t.c
  | 4 => !t.c
  | _ => true

end Sys2Proof.Machine
end

