-- ==== Sys2Proof/Machine/PetalDec.lean ====
section
/-! DEFINITION. The encoding of Petal instructions (07_petal_encoding.md R224 to R236): one row per operation with its
opcode, format, prefixes and fields, the legality of an encoding, an encoder and the decoder. -/

namespace Sys2Proof.Machine

/-- The operations of the opcode map (R230 to R234); a GO form is named by its command (10 R305). -/
inductive POp where
  | nop | getw | yieldOp | fence | lexit | mov | movi | movih | swap | clr | add | sub | andOp | orOp | xorOp
  | shl | shr | sar | addc | subc | mul | minOp | maxOp | minu | maxu | rol | addi | subi | andi | ori | xori
  | shli | shri | sari | cmp | cmpi | tst | tsti | notOp | neg | sextb | sexth | zextb | zexth | bswap | roli | ld
  | ldx | lds | ldsx | st | stx | hld | hldx | hofs | hlen | htype | br | bcc | call | callr | jmpr | ret | loopOp
  | loopi | lea | send | sendi | dropOp | mirror | recirc | tohost | edadd | edrd | alloc | freeOp | bld | bst
  | ordx | mkitem | sendmsg | pktlen | lock | locki | unlock | trylock | flock | funlock | afadd | afand | afor
  | aswap | acas | evwait | evsig | clk | cul | lkstat | tagof | tagset | mfs | mts | tblh | rdtime | rand | sett
  | relt | fdisp | assertOp | jmark | mtc | mfc | keyref | gcmEnc | gcmDec | sha256 | lmsVerify | lookup
  | insertOp | updateOp | deleteOp | hitread | scan | police | countOp | cntread | cntclr | copy | fill
  | armCreate | armMsg | disarm | hmsg | crc32c | crc32 | crc16r | crc16n | tpzInit | tpz | tpzSym | tpzH
  | tpzHSym | add16 | add32 | sub16 | finOp | bfset | extu | exts | ins | mulw | mulwu | divOp | divu | rem | remu
  | clz | ctz | popc | brev | frcrel | gett | thrst | evqlen | trig | posycap | breakOp
  deriving DecidableEq, Repr

/-- The formats of R225; `fm` is the MTC and MFC layout, `ff` a fixed function byte followed by the register byte, and
`fv` the CRC layout, whose function byte also gives the size (R232, R233, 10 R289). -/
inductive PFmt where
  | f1 | f2 | f3 | f4 | f5 | f6 | f2e | f3e | fm | ff | fv
  deriving DecidableEq, Repr

/-- One row of the opcode map. `page`: the page byte or function byte. `p`, `x`, `c`: a predicate, IMX or CO is permitted
(R229). `d`, `s`, `t`: the register fields the instruction uses. `sx`: its immediate is sign-extended (R226). -/
structure PInfo where
  op : Nat
  page : Nat
  fmt : PFmt
  sizes : List Nat
  p : Bool
  x : Bool
  c : Bool
  d : Bool
  s : Bool
  t : Bool
  sx : Bool
  deriving DecidableEq, Repr

/-- A row: `pf` adds 1 for a predicate, 2 for IMX and 4 for CO; `u` adds 1 for rd, 2 for rs and 4 for rt. -/
def prow (op page : Nat) (fmt : PFmt) (sizes : List Nat) (pf u : Nat) (sx : Bool) : PInfo :=
  { op := op, page := page, fmt := fmt, sizes := sizes, p := pf % 2 == 1, x := pf / 2 % 2 == 1, c := pf / 4 == 1,
    d := u % 2 == 1, s := u / 2 % 2 == 1, t := u / 4 == 1, sx := sx }

/-- The opcode map (R230 to R234, 10 R289, R305). -/
def pinfo : POp → PInfo
  | .nop => prow 0x00 0x00 .f1 [] 0 0 true
  | .getw => prow 0x01 0x00 .f1 [] 0 0 true
  | .yieldOp => prow 0x02 0x00 .f1 [] 1 0 true
  | .fence => prow 0x03 0x00 .f1 [] 5 0 true
  | .lexit => prow 0x04 0x00 .f1 [] 1 0 true
  | .mov => prow 0x10 0x00 .f2 [] 1 3 true
  | .movi => prow 0x11 0x00 .f3 [] 3 1 true
  | .movih => prow 0x12 0x00 .f4 [] 1 1 false
  | .swap => prow 0x13 0x00 .f2 [] 1 3 true
  | .clr => prow 0x14 0x00 .f2 [] 1 1 true
  | .add => prow 0x18 0x00 .f6 [] 1 7 true
  | .sub => prow 0x19 0x00 .f6 [] 1 7 true
  | .andOp => prow 0x1A 0x00 .f6 [] 1 7 true
  | .orOp => prow 0x1B 0x00 .f6 [] 1 7 true
  | .xorOp => prow 0x1C 0x00 .f6 [] 1 7 true
  | .shl => prow 0x1D 0x00 .f6 [] 1 7 true
  | .shr => prow 0x1E 0x00 .f6 [] 1 7 true
  | .sar => prow 0x1F 0x00 .f6 [] 1 7 true
  | .addc => prow 0x20 0x00 .f6 [] 1 7 true
  | .subc => prow 0x21 0x00 .f6 [] 1 7 true
  | .mul => prow 0x22 0x00 .f6 [] 1 7 true
  | .minOp => prow 0x23 0x00 .f6 [] 1 7 true
  | .maxOp => prow 0x24 0x00 .f6 [] 1 7 true
  | .minu => prow 0x25 0x00 .f6 [] 1 7 true
  | .maxu => prow 0x26 0x00 .f6 [] 1 7 true
  | .rol => prow 0x27 0x00 .f6 [] 1 7 true
  | .addi => prow 0x28 0x00 .f3 [] 3 1 true
  | .subi => prow 0x29 0x00 .f3 [] 3 1 true
  | .andi => prow 0x2A 0x00 .f3 [] 3 1 false
  | .ori => prow 0x2B 0x00 .f3 [] 3 1 false
  | .xori => prow 0x2C 0x00 .f3 [] 3 1 false
  | .shli => prow 0x2D 0x00 .f3 [] 1 1 false
  | .shri => prow 0x2E 0x00 .f3 [] 1 1 false
  | .sari => prow 0x2F 0x00 .f3 [] 1 1 false
  | .cmp => prow 0x30 0x00 .f2 [] 1 3 true
  | .cmpi => prow 0x31 0x00 .f3 [] 3 1 true
  | .tst => prow 0x32 0x00 .f2 [] 1 3 true
  | .tsti => prow 0x33 0x00 .f3 [] 3 1 false
  | .notOp => prow 0x34 0x00 .f2 [] 1 3 true
  | .neg => prow 0x35 0x00 .f2 [] 1 3 true
  | .sextb => prow 0x36 0x00 .f2 [] 1 3 true
  | .sexth => prow 0x37 0x00 .f2 [] 1 3 true
  | .zextb => prow 0x38 0x00 .f2 [] 1 3 true
  | .zexth => prow 0x39 0x00 .f2 [] 1 3 true
  | .bswap => prow 0x3A 0x00 .f2 [] 1 3 true
  | .roli => prow 0x3B 0x00 .f3 [] 1 1 false
  | .ld => prow 0x50 0x00 .f4 [1, 2, 3, 4] 3 3 true
  | .ldx => prow 0x51 0x00 .f6 [1, 2, 3, 4] 1 7 true
  | .lds => prow 0x52 0x00 .f4 [1, 2] 3 3 true
  | .ldsx => prow 0x53 0x00 .f6 [1, 2] 1 7 true
  | .st => prow 0x58 0x00 .f4 [1, 2, 3, 4] 3 3 true
  | .stx => prow 0x59 0x00 .f6 [1, 2, 3, 4] 1 7 true
  | .hld => prow 0x60 0x00 .f4 [1, 2, 3] 3 3 true
  | .hldx => prow 0x61 0x00 .f6 [1, 2, 3] 1 7 true
  | .hofs => prow 0x62 0x00 .f3 [] 1 1 false
  | .hlen => prow 0x63 0x00 .f3 [] 1 1 false
  | .htype => prow 0x64 0x00 .f3 [] 1 1 false
  | .br => prow 0x80 0x00 .f5 [] 3 0 true
  | .bcc => prow 0x81 0x00 .f4 [] 2 1 true
  | .call => prow 0x82 0x00 .f5 [] 3 0 true
  | .callr => prow 0x83 0x00 .f2 [] 1 2 true
  | .jmpr => prow 0x84 0x00 .f2 [] 1 2 true
  | .ret => prow 0x85 0x00 .f1 [] 1 0 true
  | .loopOp => prow 0x86 0x00 .f4 [] 0 1 false
  | .loopi => prow 0x87 0x00 .f4 [] 0 3 false
  | .lea => prow 0x88 0x00 .f4 [] 3 1 true
  | .send => prow 0xA0 0x00 .f2 [] 5 2 true
  | .sendi => prow 0xA1 0x00 .f4 [] 7 0 false
  | .dropOp => prow 0xA2 0x00 .f1 [] 5 0 true
  | .mirror => prow 0xA3 0x00 .f2 [] 5 3 true
  | .recirc => prow 0xA4 0x00 .f1 [] 5 0 true
  | .tohost => prow 0xA5 0x00 .f3 [] 5 0 false
  | .edadd => prow 0xA6 0x00 .f6 [] 1 7 true
  | .edrd => prow 0xA7 0x00 .f3 [] 1 1 false
  | .alloc => prow 0xA8 0x00 .f3 [] 5 1 false
  | .freeOp => prow 0xA9 0x00 .f2 [] 5 2 true
  | .bld => prow 0xAA 0x00 .f6 [1, 2, 3] 1 7 true
  | .bst => prow 0xAB 0x00 .f6 [1, 2, 3] 5 7 true
  | .ordx => prow 0xAC 0x00 .f1 [] 1 0 true
  | .mkitem => prow 0xAD 0x00 .f2 [] 5 3 true
  | .sendmsg => prow 0xAE 0x00 .f2 [] 5 3 true
  | .pktlen => prow 0xAF 0x00 .f2 [] 1 1 true
  | .lock => prow 0xC0 0x00 .f2 [] 5 2 true
  | .locki => prow 0xC1 0x00 .f4 [] 7 0 false
  | .unlock => prow 0xC2 0x00 .f2 [] 5 2 true
  | .trylock => prow 0xC3 0x00 .f2 [] 5 2 true
  | .flock => prow 0xC4 0x00 .f3 [] 5 0 false
  | .funlock => prow 0xC5 0x00 .f3 [] 5 0 false
  | .afadd => prow 0xC6 0x00 .f6 [] 5 7 true
  | .afand => prow 0xC7 0x00 .f6 [] 5 7 true
  | .afor => prow 0xC8 0x00 .f6 [] 5 7 true
  | .aswap => prow 0xC9 0x00 .f6 [] 5 7 true
  | .acas => prow 0xCA 0x00 .f6 [] 5 7 true
  | .evwait => prow 0xCB 0x00 .f2 [] 1 3 true
  | .evsig => prow 0xCC 0x00 .f2 [] 5 3 true
  | .clk => prow 0xCD 0x00 .f3 [] 1 1 false
  | .cul => prow 0xCE 0x00 .f3 [] 1 0 false
  | .lkstat => prow 0xCF 0x00 .f2 [] 1 3 true
  | .tagof => prow 0xD0 0x00 .f2 [] 1 3 true
  | .tagset => prow 0xD1 0x00 .f3 [] 1 1 false
  | .mfs => prow 0xD2 0x00 .f3 [] 1 1 false
  | .mts => prow 0xD3 0x00 .f3 [] 1 2 false
  | .tblh => prow 0xD4 0x00 .f3 [] 1 1 false
  | .rdtime => prow 0xD5 0x00 .f2 [] 5 3 true
  | .rand => prow 0xD6 0x00 .f2 [] 1 1 true
  | .sett => prow 0xD7 0x00 .f6 [] 1 7 true
  | .relt => prow 0xD8 0x00 .f2 [] 1 2 true
  | .fdisp => prow 0xD9 0x00 .f3 [] 1 2 false
  | .assertOp => prow 0xDA 0x00 .f3 [] 1 2 false
  | .jmark => prow 0xDB 0x00 .f2 [] 5 2 true
  | .mtc => prow 0xF0 0x00 .fm [] 1 2 false
  | .mfc => prow 0xF0 0x40 .fm [] 1 1 false
  | .keyref => prow 0xF0 0x81 .ff [] 5 0 false
  | .gcmEnc => prow 0xF0 0x82 .ff [] 5 0 false
  | .gcmDec => prow 0xF0 0x83 .ff [] 5 0 false
  | .sha256 => prow 0xF0 0x84 .ff [] 5 0 false
  | .lmsVerify => prow 0xF0 0x85 .ff [] 5 0 false
  | .lookup => prow 0xF1 0x81 .ff [] 5 0 false
  | .insertOp => prow 0xF1 0x82 .ff [] 5 0 false
  | .updateOp => prow 0xF1 0x83 .ff [] 5 0 false
  | .deleteOp => prow 0xF1 0x84 .ff [] 5 0 false
  | .hitread => prow 0xF1 0x85 .ff [] 5 0 false
  | .scan => prow 0xF2 0x81 .ff [] 5 0 false
  | .police => prow 0xF3 0x81 .ff [] 5 0 false
  | .countOp => prow 0xF3 0x82 .ff [] 5 0 false
  | .cntread => prow 0xF3 0x83 .ff [] 5 0 false
  | .cntclr => prow 0xF3 0x84 .ff [] 5 0 false
  | .copy => prow 0xF4 0x81 .ff [] 5 0 false
  | .fill => prow 0xF4 0x82 .ff [] 5 0 false
  | .armCreate => prow 0xF5 0x81 .ff [] 5 0 false
  | .armMsg => prow 0xF5 0x82 .ff [] 5 0 false
  | .disarm => prow 0xF5 0x83 .ff [] 5 0 false
  | .hmsg => prow 0xF6 0x81 .ff [] 5 0 false
  | .crc32c => prow 0xF8 0x00 .fv [] 1 3 false
  | .crc32 => prow 0xF8 0x04 .fv [] 1 3 false
  | .crc16r => prow 0xF8 0x08 .fv [] 1 3 false
  | .crc16n => prow 0xF8 0x0C .fv [] 1 3 false
  | .tpzInit => prow 0xF9 0x00 .ff [] 1 1 false
  | .tpz => prow 0xF9 0x01 .ff [] 1 3 false
  | .tpzSym => prow 0xF9 0x02 .ff [] 1 3 false
  | .tpzH => prow 0xF9 0x03 .ff [] 1 3 false
  | .tpzHSym => prow 0xF9 0x04 .ff [] 1 3 false
  | .add16 => prow 0xFA 0x00 .ff [] 1 3 false
  | .add32 => prow 0xFA 0x01 .ff [] 1 3 false
  | .sub16 => prow 0xFA 0x02 .ff [] 1 3 false
  | .finOp => prow 0xFA 0x03 .ff [] 1 1 false
  | .bfset => prow 0xFB 0x00 .ff [] 1 2 false
  | .extu => prow 0xFB 0x01 .ff [] 1 3 false
  | .exts => prow 0xFB 0x02 .ff [] 1 3 false
  | .ins => prow 0xFB 0x03 .ff [] 1 3 false
  | .mulw => prow 0xFC 0x00 .f2e [] 1 3 true
  | .mulwu => prow 0xFC 0x01 .f2e [] 1 3 true
  | .divOp => prow 0xFC 0x02 .f2e [] 1 3 true
  | .divu => prow 0xFC 0x03 .f2e [] 1 3 true
  | .rem => prow 0xFC 0x04 .f2e [] 1 3 true
  | .remu => prow 0xFC 0x05 .f2e [] 1 3 true
  | .clz => prow 0xFC 0x08 .f2e [] 1 3 true
  | .ctz => prow 0xFC 0x09 .f2e [] 1 3 true
  | .popc => prow 0xFC 0x0A .f2e [] 1 3 true
  | .brev => prow 0xFC 0x0B .f2e [] 1 3 true
  | .frcrel => prow 0xFD 0x00 .f2e [] 1 2 true
  | .gett => prow 0xFD 0x01 .f3e [] 1 3 false
  | .thrst => prow 0xFD 0x02 .f2e [] 1 3 true
  | .evqlen => prow 0xFD 0x03 .f2e [] 1 1 true
  | .trig => prow 0xFD 0x04 .f3e [] 1 2 false
  | .posycap => prow 0xFD 0x05 .f3e [] 1 1 false
  | .breakOp => prow 0xFF 0x00 .f1 [] 0 0 true

/-- Every operation. -/
def popAll : List POp := [
  .nop, .getw, .yieldOp, .fence, .lexit, .mov, .movi, .movih, .swap, .clr, .add, .sub, .andOp, .orOp, .xorOp,
  .shl, .shr, .sar, .addc, .subc, .mul, .minOp, .maxOp, .minu, .maxu, .rol, .addi, .subi, .andi, .ori, .xori,
  .shli, .shri, .sari, .cmp, .cmpi, .tst, .tsti, .notOp, .neg, .sextb, .sexth, .zextb, .zexth, .bswap, .roli, .ld,
  .ldx, .lds, .ldsx, .st, .stx, .hld, .hldx, .hofs, .hlen, .htype, .br, .bcc, .call, .callr, .jmpr, .ret, .loopOp,
  .loopi, .lea, .send, .sendi, .dropOp, .mirror, .recirc, .tohost, .edadd, .edrd, .alloc, .freeOp, .bld, .bst,
  .ordx, .mkitem, .sendmsg, .pktlen, .lock, .locki, .unlock, .trylock, .flock, .funlock, .afadd, .afand, .afor,
  .aswap, .acas, .evwait, .evsig, .clk, .cul, .lkstat, .tagof, .tagset, .mfs, .mts, .tblh, .rdtime, .rand, .sett,
  .relt, .fdisp, .assertOp, .jmark, .mtc, .mfc, .keyref, .gcmEnc, .gcmDec, .sha256, .lmsVerify, .lookup,
  .insertOp, .updateOp, .deleteOp, .hitread, .scan, .police, .countOp, .cntread, .cntclr, .copy, .fill,
  .armCreate, .armMsg, .disarm, .hmsg, .crc32c, .crc32, .crc16r, .crc16n, .tpzInit, .tpz, .tpzSym, .tpzH,
  .tpzHSym, .add16, .add32, .sub16, .finOp, .bfset, .extu, .exts, .ins, .mulw, .mulwu, .divOp, .divu, .rem, .remu,
  .clz, .ctz, .popc, .brev, .frcrel, .gett, .thrst, .evqlen, .trig, .posycap, .breakOp]

/-- The length of an instruction from its opcode byte on (R225). -/
def fmtLen (f : PFmt) (imx : Bool) : Nat :=
  match f with
  | .f1 => 1
  | .f2 => 2
  | .f3 => if imx then 6 else 3
  | .f4 => if imx then 6 else 4
  | .f5 => if imx then 5 else 3
  | .f6 => 3
  | .f2e => 3
  | .f3e => 4
  | .fm => 3
  | .ff => 3
  | .fv => 3

/-- The immediate bytes of a format (R225). -/
def immLen (f : PFmt) (imx : Bool) : Nat :=
  match f with
  | .f3 => if imx then 4 else 1
  | .f4 => if imx then 4 else 2
  | .f5 => if imx then 4 else 2
  | .f3e => 1
  | _ => 0

/-- The prefix bytes of a form. -/
def prefixes (f : Form) : List Nat :=
  (if f.size = 0 then [] else [0xDF + f.size.val]) ++ (if f.pred = 0 then [] else [0xE3 + f.pred.val]) ++
  (if f.imx then [0xE8] else []) ++ (if f.co then [0xE9] else [])

/-- The length in bytes of an instruction (R224, R225). -/
def formLen (o : POp) (f : Form) : Nat := (prefixes f).length + fmtLen (pinfo o).fmt f.imx

/-- An immediate of `n` bytes extended to 32 bits (R226). -/
def immExt (n : Nat) (sx : Bool) (v : Nat) : Word :=
  if sx && decide (n < 4) then w32i (sgn (8 * n) v) else w32 v

/-- The target of a branch, CALL or LEA: absolute with IMX, else a signed displacement from the next instruction
(R226). -/
def brTarget (f : Form) (next : Nat) : Int := if f.imx then (f.imm.toNat : Int) else (next : Int) + f.imm.toInt

/-- A target lies in the instruction store (R226, 08 R254). -/
def brOk (f : Form) (next : Nat) : Bool := decide (0 ≤ brTarget f next) && decide (brTarget f next ≤ 524287)

/-- The selectors of R216 that MFS reads. -/
def mfsSel (k : Nat) : Bool := decide (k ≤ 4) || (decide (8 ≤ k) && decide (k ≤ 20))

/-- The selectors of R216 that MTS writes. -/
def mtsSel (k : Nat) : Bool := k == 0 || k == 4 || (decide (16 ≤ k) && decide (k ≤ 19))

/-- The immediate and the encoded fields have legal values (R236 and the entries). -/
def immOk (o : POp) (f : Form) (next : Nat) : Bool :=
  let v := f.imm.toNat
  match o with
  | .shli => decide (v < 32)
  | .shri => decide (v < 32)
  | .sari => decide (v < 32)
  | .roli => decide (v < 32)
  | .hofs => decide (v < 24)
  | .hlen => decide (v < 24)
  | .htype => decide (v < 24)
  | .br => brOk f next
  | .call => brOk f next
  | .lea => brOk f next
  | .bcc => decide (f.rd.val < 10) && brOk f next
  | .loopOp => decide (v ≠ 0) && decide (next + v ≤ 524288)
  | .loopi => decide (v ≠ 0) && decide (next + v ≤ 524288)
  | .sendi => decide (v < 65536)
  | .edrd => decide (v < 64)
  | .alloc => decide (v < 16)
  | .flock => decide (v < 64)
  | .funlock => decide (v < 64)
  | .clk => decide (v < 7)
  | .cul => decide (v < 7)
  | .tagset => decide (v < 16)
  | .mfs => mfsSel v
  | .mts => mtsSel v
  | .tblh => decide (v ≠ 255)
  | .rdtime => decide (f.rs.val < 3)
  | .sett => decide (f.rt.val < 3)
  | .fdisp => decide (v < 3)
  | .gett => decide (v < 19)
  | .posycap => decide (v ≠ 255)
  | .mulw => decide (f.rd.val % 2 = 0)
  | .mulwu => decide (f.rd.val % 2 = 0)
  | .lds => decide (f.size ≠ 0)
  | .ldsx => decide (f.size ≠ 0)
  | _ => true

/-- The immediate is one the format carries. -/
def immCanon (o : POp) (f : Form) : Bool :=
  let i := pinfo o
  match i.fmt with
  | .fm => decide (f.imm.toNat < 112)
  | .fv => decide (f.imm.toNat < 3)
  | _ =>
    let n := immLen i.fmt f.imx
    decide (immExt n i.sx (f.imm.toNat % 256 ^ n) = f.imm)

/-- An encoding that is neither undefined nor reserved, at an address whose next instruction is at `next` (R229, R236). -/
def formLegal (o : POp) (f : Form) (next : Nat) : Bool :=
  let i := pinfo o
  (decide (f.size = 0) || i.sizes.contains f.size.val) && (decide (f.pred = 0) || i.p) && (!f.imx || i.x) &&
  (!f.co || i.c) && (i.d || decide (f.rd = 0)) && (i.s || decide (f.rs = 0)) && (i.t || decide (f.rt = 0)) &&
  immCanon o f && immOk o f next

/-- The bytes of an instruction: prefixes, opcode, operand bytes, immediate (R224). -/
def petalEncode (o : POp) (f : Form) : List Byte :=
  let i := pinfo o
  let ds := f.rd.val * 16 + f.rs.val
  let v := f.imm.toNat
  let body : List Nat := match i.fmt with
    | .f1 => [i.op]
    | .f2 => [i.op, ds]
    | .f3 => [i.op, ds]
    | .f4 => [i.op, ds]
    | .f5 => [i.op]
    | .f6 => [i.op, ds, f.rt.val * 16]
    | .f2e => [i.op, i.page, ds]
    | .f3e => [i.op, i.page, ds]
    | .fm => [i.op + v / 16, i.page + v % 16, ds]
    | .ff => [i.op, i.page, ds]
    | .fv => [i.op, i.page + v, ds]
  (prefixes f ++ body).map by8 ++ leBytes (immLen i.fmt f.imx) v

/-- The bytes at an opcode match a row of the opcode map: the opcode byte, and the page or function byte. -/
def popMatch (b0 b1 : Nat) (o : POp) : Bool :=
  let i := pinfo o
  match i.fmt with
  | .fm => decide (0xF0 ≤ b0) && decide (b0 ≤ 0xF6) && b1 / 16 * 16 == i.page
  | .ff => b0 == i.op && b1 == i.page
  | .fv => b0 == i.op && b1 / 4 * 4 == i.page && decide (b1 % 4 < 3)
  | .f2e => b0 == i.op && b1 == i.page
  | .f3e => b0 == i.op && b1 == i.page
  | _ => b0 == i.op

/-- The operation at an opcode byte and the byte after it. -/
def popAt (b0 b1 : Nat) : Option POp := popAll.find? (popMatch b0 b1)

/-- The class of a prefix byte (R227): 1 size, 2 predicate, 3 IMX, 4 CO; 0 for a reserved prefix. -/
def prefClass (b : Nat) : Nat :=
  if b ≤ 0xE3 then 1 else if b ≤ 0xE7 then 2 else if b = 0xE8 then 3 else if b = 0xE9 then 4 else 0

/-- Add one prefix byte to a form; none for a reserved prefix or a repeated class (R236). -/
def addPrefix (b : Nat) (f : Form) : Option Form :=
  match prefClass b with
  | 1 => if f.size = 0 then some { f with size := Fin.ofNat 5 (b - 0xDF) } else none
  | 2 => if f.pred = 0 then some { f with pred := Fin.ofNat 5 (b - 0xE3) } else none
  | 3 => if f.imx then none else some { f with imx := true }
  | 4 => if f.co then none else some { f with co := true }
  | _ => none

/-- A byte of a fetched sequence as a number; beyond its end 0xFE, the filler (02 R76). -/
def fetched (l : List Byte) (k : Nat) : Nat := ((l[k]?).getD 0xFE).toNat

/-- Read the prefixes: how many bytes they take, and the form; none at a reserved or repeated one. -/
def readPrefixes (l : List Byte) : Nat → Nat → Form → Option (Nat × Form)
  | 0, _, _ => none
  | n + 1, k, f =>
    let b := fetched l k
    if 0xE0 ≤ b && b ≤ 0xEF then
      match addPrefix b f with
      | some f => readPrefixes l n (k + 1) f
      | none => none
    else some (k, f)

/-- A form with nothing in it. -/
def Form.plain : Form :=
  { size := 0, pred := 0, imx := false, co := false, rd := 0, rs := 0, rt := 0, imm := 0, err := 0 }

/-- Read the operand bytes and the immediate that follow the prefixes; none where bits [3:0] of byte 2 of F6 are not 0. -/
def readFields (l : List Byte) (k : Nat) (o : POp) (f : Form) : Option Form :=
  let i := pinfo o
  let rb := fun (b : Nat) => { f with rd := Fin.ofNat 16 (b / 16), rs := Fin.ofNat 16 b }
  let im := fun (q : Nat) (g : Form) =>
    let n := immLen i.fmt f.imx
    { g with imm := immExt n i.sx (leVal (sliceB l q n)) }
  match i.fmt with
  | .f1 => some f
  | .f2 => some (rb (fetched l (k + 1)))
  | .f3 => some (im (k + 2) (rb (fetched l (k + 1))))
  | .f4 => some (im (k + 2) (rb (fetched l (k + 1))))
  | .f5 => some (im (k + 1) f)
  | .f6 =>
    let b := fetched l (k + 2)
    if b % 16 = 0 then some { rb (fetched l (k + 1)) with rt := Fin.ofNat 16 (b / 16) } else none
  | .f2e => some (rb (fetched l (k + 2)))
  | .f3e => some (im (k + 3) (rb (fetched l (k + 2))))
  | .fm => some { rb (fetched l (k + 2)) with imm := w32 ((fetched l k - 0xF0) * 16 + fetched l (k + 1) % 16) }
  | .ff => some (rb (fetched l (k + 2)))
  | .fv => some { rb (fetched l (k + 2)) with imm := w32 (fetched l (k + 1) % 4) }

/-- The decoder of R236: the operation, its form and its length, or none for ILLEGAL_OP. -/
def petalDecode (l : List Byte) (pc : Nat) : Option (POp × Form × Nat) :=
  match readPrefixes l 5 0 Form.plain with
  | none => none
  | some (k, f) =>
    match popAt (fetched l k) (fetched l (k + 1)) with
    | none => none
    | some o =>
      match readFields l k o f with
      | none => none
      | some f =>
        let len := k + fmtLen (pinfo o).fmt f.imx
        if formLegal o f (pc + len) then some (o, f, len) else none

/-- How far the scan of prefix bytes reaches: the position of the first reserved or repeated prefix, or of the opcode. -/
def prefStop (l : List Byte) : Nat → Nat → Form → Nat × Bool
  | 0, k, _ => (k, false)
  | n + 1, k, f =>
    let b := fetched l k
    if 0xE0 ≤ b && b ≤ 0xEF then
      match addPrefix b f with
      | some f => prefStop l n (k + 1) f
      | none => (k, false)
    else (k, true)

/-- An opcode byte has a format whatever follows: that of its first row; the page decides on the escape pages. -/
def fmtAt (b0 b1 : Nat) : Option PFmt :=
  if 0xF0 ≤ b0 && b0 ≤ 0xF6 then some .ff
  else if 0xF8 ≤ b0 && b0 ≤ 0xFB then some .ff
  else (popAt b0 b1).map (fun o => (pinfo o).fmt)

/-- The length by which SKIP passes an instruction (06 R204): that of R224 for a defined opcode, else the bytes up to and
including the first undefined one. -/
def skipLen (l : List Byte) : Nat :=
  match prefStop l 5 0 Form.plain with
  | (k, false) => k + 1
  | (k, true) =>
    let b0 := fetched l k
    match fmtAt b0 (fetched l (k + 1)) with
    | some f => k + fmtLen f ((l.take k).any (fun b => b == 0xE8) && decide (immLen f false ≠ 0))
    | none => if b0 = 0xFC || b0 = 0xFD then k + 2 else k + 1

/-- The bytes the decoder needs of a sequence (R235 step 1, R236): all of a defined opcode's; up to the first undefined
byte else. -/
def needLen (l : List Byte) : Nat := skipLen l

end Sys2Proof.Machine
end

