-- ==== Sys2Proof/Machine/Petal.lean ====
section
/-! DEFINITION. How every Petal instruction executes: the order of checks (07_petal_encoding.md R235), predicates (R228),
commit-ordered waits (05_dispatch_order.md R179), faults and the fall-through rule of loops (R238). -/

namespace Sys2Proof.Machine

/-- What an instruction's body sees. -/
structure PCx where
  tid   : Nat
  core  : Nat
  t     : Thread
  plain : Bool
  next  : Nat
  f     : Form

/-- What an instruction's body answers: `ok`, it commits and falls through; `jump`, it commits with a taken branch;
`flt`, a program-class fault with its address (and the counts R331 makes); `hw`, a hardware-class fault; `wait`, it has
put its thread into a waiting state and has not committed; `done`, it commits and has set the thread itself. -/
inductive PRes where
  | ok (s : State)
  | jump (s : State) (pc : Nat)
  | flt (s : State) (code addr : Nat)
  | hw (s : State) (code : Nat)
  | wait (s : State)
  | done (s : State)

/-- A debugger session holds a core: some requester has an open one with CORE_DEBUG over its instance (17 R455). -/
def dbgHeld (s : State) (i : Nat) : Bool := s.sec.sess.any (fun p => p.2.rights.testBit 0 && p.2.mask.testBit i)

/-- A valid breakpoint of the core names this PC (06 R213). -/
def bkptAt (s : State) (c pc : Nat) : Bool :=
  (List.range 4).any (fun k =>
    let w := rv s (0x2809000 + 0x10 * c + 4 * k)
    bit w 31 && bits w 18 0 == pc)

/-- A fetch line of the core's cluster is in error (06 R195). -/
def lineBad (s : State) (k pc len : Nat) : Bool :=
  mget s.cores.badLine (k * 8192 + pc / 64) false || mget s.cores.badLine (k * 8192 + (pc + len - 1) / 64) false

/-- The entries that only a supervisor thread may execute (07 R234, 06 R199). -/
def petalPriv (o : POp) : Bool :=
  match o with
  | .sett => true
  | .relt => true
  | .fdisp => true
  | .frcrel => true
  | .gett => true
  | .thrst => true
  | .evqlen => true
  | .trig => true
  | .posycap => true
  | _ => false

/-- The shared unit an instruction names (10 R292). -/
def petalUnit (o : POp) (f : Form) : Option Nat :=
  match o with
  | .clk => some f.imm.toNat
  | .cul => some f.imm.toNat
  | .mtc => some (f.imm.toNat / 16)
  | .mfc => some (f.imm.toNat / 16)
  | _ =>
    let i := pinfo o
    if 0xF0 ≤ i.op && i.op ≤ 0xF6 then some (i.op - 0xF0) else none

/-- The block of the posies' stage whose new operation an instruction is, other than CORE itself (01 R28, R49). -/
def petalBlk (o : POp) : Option Nat :=
  match o with
  | .lock => some 20
  | .locki => some 20
  | .unlock => some 20
  | .trylock => some 20
  | .flock => some 20
  | .funlock => some 20
  | .lkstat => some 20
  | .frcrel => some 20
  | .afadd => some 20
  | .afand => some 20
  | .afor => some 20
  | .aswap => some 20
  | .acas => some 20
  | .alloc => some 21
  | .freeOp => some 21
  | .clk => some 19
  | _ =>
    let i := pinfo o
    if 0xF0 ≤ i.op && i.op ≤ 0xF6 then some 19 else none

/-- An instruction waits at its PC while the block its operation belongs to takes none (01 R49, R50). -/
def petalWaits (o : POp) (s : State) : Bool :=
  match petalBlk o with
  | some b => !running s b 0
  | none => false

/-- The thread waits in STALL for a result; it executes the instruction again when one arrives (06 R196). -/
def stallThr (tid : Nat) (s : State) : State :=
  thrMod tid (fun t => { t with st := .stall, stallAt := s.clk.fab }) s

/-- A thread that waits in STALL is READY again. -/
def unstall (tid : Nat) (s : State) : State :=
  thrMod tid (fun t =>
    if t.st = .stall then { t with st := .ready }
    else if t.st = .stopped && t.back = .stall then { t with back := .ready } else t) s

/-- A CO instruction has to wait: its context is not the head of its flow, nor UNORD (05 R179). -/
def coWaits (s : State) (t : Thread) : Bool :=
  match t.ctx with
  | none => false
  | some x =>
    let c := ctxOf s x
    decide (c.st ≠ .unord) && flowHead s c.flow != some x

/-- The thread blocks in an order wait (05 R179). -/
def orderBlock (tid : Nat) (s : State) : State :=
  let s := cnt (0x240110C + 0x20 * tinst s tid) s
  thrMod tid (fun t => { t with st := .blocked, wait := .order }) s

/-- After a commit: the instruction is counted, and a thread that STEP armed stops again (06 R213). -/
def petalCommit (tid : Nat) (s : State) : State :=
  let s := commitCnt (tid / 8) (thrMod tid (fun t => { t with bkSkip := false }) s)
  let t := thr s tid
  if t.step = 1 && decide (t.st = .ready) then stopThread t.yield tid s else s

/-- Carry out what a body answered. -/
def petalFinish (x : PCx) (s : State) : PRes → State
  | .ok s' => petalCommit x.tid (thrMod x.tid (advance x.next) s')
  | .jump s' pc => petalCommit x.tid (thrMod x.tid (fun t => { t with pc := pc }) s')
  | .flt s' code addr => progFault x.tid code addr x.next s'
  | .hw s' code => hwFault x.tid code s'
  | .wait s' => stepSettle x.tid s'
  | .done s' => petalCommit x.tid s'

/-- The registers and flags whose results must have arrived (09 R282): those read, and FL for a predicate on Z. -/
def petalNeeds (o : Opn) (f : Form) : List Nat :=
  o.reads ++ o.moves ++ (if f.pred.val = 1 || f.pred.val = 2 then [16] else [])

/-- Execute from step 6 of R235 on: poison (in a plain32 posy only the word an uncorrectable atomic read left is so
marked, and any instruction that reads its register faults, 09 R282), tags and destinations, then the body's own checks, then the order wait of CO,
then the effect. -/
def petalExec (x : PCx) (s : State) (o : Opn) (body : PCx → State → PRes) : State :=
  let t := x.t
  if (petalNeeds o x.f).any (fun r => t.busy.contains r) then stallThr x.tid s
  else if (if x.plain then o.reads ++ o.moves else o.reads).any (fun r => r != 16 && tagR t r == tPOISON) then
    progFault x.tid 8 0 x.next s
  else if !x.plain && (!o.ok t || o.moves.any (fun r => !tmOk (tagR t r)) || o.dsts.any (fun r => tagR t r == tBUF)) then
    progFault x.tid 2 0 x.next s
  else match body x s with
    | .flt s' code addr => petalFinish x s (.flt s' code addr)
    | .hw s' code => petalFinish x s (.hw s' code)
    | r => if x.f.co && coWaits s t then orderBlock x.tid s else petalFinish x s r

/-- Steps 2 to 5 of R235: encoding, privilege, attachment, predicate. -/
def petalChecks (op : POp) (x : PCx) (s : State) (o : Opn) (body : PCx → State → PRes) : State :=
  if !formLegal op x.f x.next then progFault x.tid 1 0 x.next s
  else if petalPriv op && !isSup s x.tid then progFault x.tid 5 0 x.next s
  else if (match petalUnit op x.f with
      | some u => !(unitsOf s (clusterOf s x.core)).testBit u
      | none => false) then progFault x.tid 7 0 x.next s
  else if (x.f.pred.val = 1 || x.f.pred.val = 2) && x.t.busy.contains 16 then stallThr x.tid s
  else if !predHolds x.t x.f then petalFinish x s (.ok s)
  else if petalWaits op s then s
  else petalExec x s o body

/-- Mark the instruction-store lines of an uncorrectable fetch and report it (06 R195, 18 R473). The memory's id in UNIT
is a free value. -/
def fetchBad (k pc : Nat) (i : Nat) (s : State) : State :=
  let (u, s) := drawWord s
  let s := { s with cores := { s.cores with badLine := mput s.cores.badLine (k * 8192 + pc / 64) true false } }
  ercReport 0x80 2 2 (bits u 23 0) (pc / 64 * 64) (some i) s

/-- A thread issues the instruction at its PC (06 R213). -/
def issueAt (tid : Nat) (s : State) : State := thrMod tid (fun t => { t with lastPc := t.pc }) s

/-- What an issuing thread's instruction sees. -/
def issueCx (op : POp) (tid c : Nat) (f : Form) (s : State) : PCx :=
  { tid := tid, core := c, t := thr s tid, plain := plainOf s tid, next := (thr s tid).pc + formLen op f, f := f }

/-- Step 1 of R235: the fetch of the instruction's bytes. -/
def petalFetch (op : POp) (x : PCx) (s : State) (opn : PCx → Opn) (body : PCx → State → PRes) : State :=
  let len := formLen op x.f
  let k := clusterOf s x.core
  if 524288 < x.t.pc + len then progFault x.tid 3 (max x.t.pc 524288) x.next s
  else if x.f.err.val = 1 then hwFault x.tid 0x1B (fetchBad k x.t.pc (tinst s x.tid) s)
  else if lineBad s k x.t.pc len then hwFault x.tid 0x1B s
  else petalChecks op x s (opn x) body

/-- Execute an instruction that a thread's core has fetched at its PC. A thread that is not READY executes nothing, nor does one of
a CORE block that is idle (01 R50). -/
def petal (op : POp) (th : Thr) (f : Form) (s : State) (opn : PCx → Opn) (body : PCx → State → PRes) : State :=
  let tid := tidOf th.core.val th.thread.val
  let t := thr s tid
  if t.st ≠ .ready then s
  else if t.step = 2 then stopThread t.yield tid s
  else if !active s 18 0 then s
  else if bkptAt s th.core.val t.pc && !t.bkSkip && dbgHeld s (tinst s tid) then stopThread (rb s 0x280800C 0) tid s
  else petalFetch op (issueCx op tid th.core.val f (issueAt tid s)) (issueAt tid s) opn body

/-- The bytes a core fetches at a PC where they encode no instruction: ILLEGAL_OP, or BOUNDS where the decoder needs a
byte beyond the store (07 R235, R236). -/
def petalIllegal (th : Thr) (raw : List Byte) (s : State) : State :=
  let tid := tidOf th.core.val th.thread.val
  let t := thr s tid
  match t.st with
  | .ready =>
    if (petalDecode raw t.pc).isSome || !active s 18 0 then s
    else
      let s := setThr tid { t with lastPc := t.pc } s
      let n := skipLen raw
      if 524287 < t.pc + n - 1 then progFault tid 3 (max t.pc 524288) (t.pc + n) s
      else progFault tid 1 0 (t.pc + n) s
  | _ => s

end Sys2Proof.Machine
end

