-- ==== Sys2Proof/Machine/PetalAlu.lean ====
section
/-! DEFINITION. The meanings of the one-byte control, move, arithmetic, comparison and extended-ALU instructions
(08_petal_core_ops.md R244 to R248). -/

namespace Sys2Proof.Machine

/-- Commit with a change of the thread. -/
def commitT (x : PCx) (g : Thread → Thread) (s : State) : PRes := .ok (thrMod x.tid g s)

/-- Register numbers of a form. -/
def PCx.rd (x : PCx) : Nat := x.f.rd.val
/-- rs. -/
def PCx.rs (x : PCx) : Nat := x.f.rs.val
/-- rt. -/
def PCx.rt (x : PCx) : Nat := x.f.rt.val

/-- The operands of rd := rs op rt; `fl`: FL is read. -/
def alu3Opn (tagf : Nat → Nat → Option Nat) (fl : Bool) (x : PCx) : Opn :=
  { reads := [x.rs, x.rt] ++ (if fl then [16] else []), moves := [], dsts := [x.rd],
    ok := fun t => (tagf (tagR t x.rs) (tagR t x.rt)).isSome }

/-- The operands of rd := rd op imm. -/
def aluIOpn (tagf : Nat → Nat → Option Nat) (x : PCx) : Opn :=
  { reads := [x.rd], moves := [], dsts := [x.rd], ok := fun t => (tagf (tagR t x.rd) tINT).isSome }

/-- The operands of CMP and TST. -/
def cmpOpn (ok : Nat → Nat → Bool) (x : PCx) : Opn :=
  { reads := [x.rd, x.rs], moves := [], dsts := [], ok := fun t => ok (tagR t x.rd) (tagR t x.rs) }

/-- rd := rs op rt: `tagf` gives the result tag of a legal pair of tags, `g` the thread's flags and the result. -/
def alu3 (op : POp) (tagf : Nat → Nat → Option Nat) (fl : Bool) (g : Thread → Word → Word → Thread × Word) (th : Thr)
    (f : Form) (s : State) : State :=
  petal op th f s (alu3Opn tagf fl)
    (fun x s =>
      let r := g x.t (valR x.t x.rs) (valR x.t x.rt)
      let tag := (tagf (tagR x.t x.rs) (tagR x.t x.rt)).getD tINT
      commitT x (fun t => setG { t with z := r.1.z, n := r.1.n, c := r.1.c, v := r.1.v } x.rd (tvOf x.plain r.2 tag)) s)

/-- rd := rd op imm. -/
def aluI (op : POp) (tagf : Nat → Nat → Option Nat) (g : Thread → Word → Word → Thread × Word) (th : Thr)
    (f : Form) (s : State) : State :=
  petal op th f s (aluIOpn tagf)
    (fun x s =>
      let r := g x.t (valR x.t x.rd) x.f.imm
      let tag := (tagf (tagR x.t x.rd) tINT).getD tINT
      commitT x (fun t => setG { t with z := r.1.z, n := r.1.n, c := r.1.c, v := r.1.v } x.rd (tvOf x.plain r.2 tag)) s)

/-- rd := op rs, with an INT operand and result. -/
def alu2 (op : POp) (g : Thread → Word → Thread × Word) (th : Thr) (f : Form) (s : State) : State :=
  petal op th f s (fun x => opInt [x.rs] [x.rd])
    (fun x s =>
      let r := g x.t (valR x.t x.rs)
      commitT x (fun t => setG { t with z := r.1.z, n := r.1.n, c := r.1.c, v := r.1.v } x.rd (tvInt r.2)) s)

/-- rd := rd op rs, with INT operands and result. -/
def alu2d (op : POp) (fl : Thread → Word → Word → Thread × Word) (th : Thr) (f : Form) (s : State) : State :=
  petal op th f s (fun x => opInt [x.rd, x.rs] [x.rd])
    (fun x s =>
      let r := fl x.t (valR x.t x.rd) (valR x.t x.rs)
      commitT x (fun t => setG { t with z := r.1.z, n := r.1.n, c := r.1.c, v := r.1.v } x.rd (tvInt r.2)) s)

/-- The tag rule TI as a pair rule. -/
def tiTag (a b : Nat) : Option Nat := if a = tINT && b = tINT then some tINT else none

/-- Addition with flags. -/
def gAdd (cin : Thread → Bool) (t : Thread) (a b : Word) : Thread × Word :=
  let r := aluAdd a b (cin t)
  (setZNCV r t, r.v)

/-- Subtraction with flags. -/
def gSub (cin : Thread → Bool) (t : Thread) (a b : Word) : Thread × Word :=
  let r := aluSub a b (cin t)
  (setZNCV r t, r.v)

/-- A result that sets Z and N. -/
def gZN (h : Word → Word → Word) (t : Thread) (a b : Word) : Thread × Word := (setZN (h a b) t, h a b)

/-- A result that sets no flag. -/
def gNo (h : Word → Word → Word) (t : Thread) (a b : Word) : Thread × Word := (t, h a b)

/-- A shift. -/
def gSh (h : Word → Nat → Bool → Word × Bool) (t : Thread) (a b : Word) : Thread × Word :=
  let r := h a b.toNat t.c
  (setZNC r t, r.1)

/-- MIN, MAX, MINU and MAXU (R247): `wantLess` picks the lesser. Two TIME operands compare by the sign of the wrapped
difference; equal operands give rs. -/
def minMax (op : POp) (wantLess sgnd : Bool) (th : Thr) (f : Form) (s : State) : State :=
  petal op th f s (alu3Opn mmTag false)
    (fun x s =>
      let a := valR x.t x.rs
      let b := valR x.t x.rt
      let time := !x.plain && tagR x.t x.rs == tTIME
      let less := if time then bit (a - b) 31 else if sgnd then a.slt b else a.ult b
      let more := if a = b then false else !less
      let r := if wantLess then (if more then b else a) else (if less then b else a)
      commitT x (fun t => setG t x.rd (tvOf x.plain r (tagR x.t x.rs))) s)

/-- Leading zeros of a word: the zeros above its highest set bit, `n` bits examined from the top. -/
def clzN (w : Word) : Nat → Nat
  | 0 => 0
  | n + 1 => if bit w n then 0 else 1 + clzN w n

/-- Trailing zeros of a word, from bit `k`, `n` bits examined. -/
def ctzN (w : Word) (k : Nat) : Nat → Nat
  | 0 => 0
  | n + 1 => if bit w k then 0 else 1 + ctzN w (k + 1) n

/-- The number of 1 bits. -/
def popcN (w : Word) : Nat := ((List.range 32).filter (fun k => bit w k)).length

/-- A word with bit i moved to bit 31 − i. -/
def brevW (w : Word) : Word := w32 (((List.range 32).map (fun k => if bit w k then 2 ^ (31 - k) else 0)).sum)

/-- A word with its bytes reversed. -/
def bswapW (w : Word) : Word := w32 (beVal (leBytes 4 w.toNat))

/-- A signed division truncated toward zero, and its remainder with the sign of the dividend (R248). -/
def divS (a b : Word) : Word := w32i (a.toInt.tdiv b.toInt)
def remS (a b : Word) : Word := w32i (a.toInt.tmod b.toInt)

/-- The one signed overflow of a division (R248). -/
def divOv (a b : Word) : Bool := a == 0x80000000 && b == 0xFFFFFFFF

/-- A division of rd by rs: DIV_ZERO at execution when the divisor is 0; V tells the signed overflow (R248). -/
def divOp (op : POp) (sgnd : Bool) (h : Word → Word → Word) (th : Thr) (f : Form) (s : State) : State :=
  petal op th f s (fun x => opInt [x.rd, x.rs] [x.rd])
    (fun x s =>
      let a := valR x.t x.rd
      let b := valR x.t x.rs
      if b = 0 then .flt s 0x0C 0
      else commitT x (fun t => setG { t with v := sgnd && divOv a b } x.rd (tvInt (h a b))) s)

/-- A 64-bit product to rd (low) and rd + 1 (high), both destinations (R248). -/
def mulWide (op : POp) (h : Word → Word → Int) (th : Thr) (f : Form) (s : State) : State :=
  petal op th f s (fun x => opInt [x.rd, x.rs] [x.rd, x.rd + 1])
    (fun x s =>
      let p := (BitVec.ofInt 64 (h (valR x.t x.rd) (valR x.t x.rs))).toNat
      commitT x (fun t => setG (setG t x.rd (tvInt (w32 p))) (x.rd + 1) (tvInt (w32 (p / 2 ^ 32)))) s)

/-- YIELD (R244): the effect of NOP. -/
def execYield (th : Thr) (f : Form) (s : State) : Result := .next (petal .yieldOp th f s (fun _ => opNone []) (fun _ s => .ok s))

/-- FENCE (R244) commits once no atomic operation of its thread is unperformed and no pass-down command with side effects
is outstanding; until then it executes again. -/
def execFence (th : Thr) (f : Form) (s : State) : Result := .next (petal .fence th f s (fun _ => opNone []) (fun x s =>
  if s.lck.atoms.any (fun a => a.tid == x.tid) ||
      s.cpx.ctx.any (fun p => match p.2.cmd with
        | some k => k.se && k.tid == x.tid
        | none => false) then .wait s
  else .ok s))

/-- LEXIT (R239). -/
def execLexit (th : Thr) (f : Form) (s : State) : Result := .next (petal .lexit th f s (fun _ => opNone []) (fun x s => commitT x (fun t => { t with depth := t.depth - 1 }) s))

/-- MOV (R245): TM; a BUF source becomes VOID; the destination may not hold BUF. -/
def execMov (th : Thr) (f : Form) (s : State) : Result := .next (petal .mov th f s
  (fun x => { reads := [], moves := [x.rs], dsts := [x.rd], ok := fun _ => true })
  (fun x s => commitT x (fun t => setG (unBuf x.plain x.rs t) x.rd (tvRead x.plain t x.rs)) s))

/-- MOVI (R245). -/
def execMovi (th : Thr) (f : Form) (s : State) : Result := .next (petal .movi th f s (fun x => opNone [x.rd]) (fun x s => commitT x (fun t => setG t x.rd (tvInt x.f.imm)) s))

/-- MOVIH: the high half-word of rd. -/
def execMovih (th : Thr) (f : Form) (s : State) : Result := .next (petal .movih th f s (fun x => opInt [x.rd] [x.rd])
  (fun x s => commitT x (fun t => setG t x.rd (tvInt (setBits (valR x.t x.rd) 31 16 x.f.imm.toNat))) s))

/-- SWAP (R245): values and tags change places; BUF in either register is no fault. -/
def execSwap (th : Thr) (f : Form) (s : State) : Result := .next (petal .swap th f s
  (fun x => { reads := [], moves := [x.rd, x.rs], dsts := [], ok := fun _ => true })
  (fun x s => commitT x (fun t => setG (setG t x.rd (tvRead x.plain t x.rs)) x.rs (tvRead x.plain t x.rd)) s))

/-- CLR (R245): 0 with tag VOID; it reads no operand. -/
def execClr (th : Thr) (f : Form) (s : State) : Result := .next (petal .clr th f s (fun x => opNone [x.rd])
  (fun x s => commitT x (fun t => setG t x.rd (tvOf x.plain 0 tVOID)) s))

/-- ADD (R246, R247). -/
def execAdd (th : Thr) (f : Form) (s : State) : Result := .next (alu3 .add taAdd false (gAdd (fun _ => false)) th f s)

/-- SUB (R246, R247). -/
def execSub (th : Thr) (f : Form) (s : State) : Result := .next (alu3 .sub taSub false (gSub (fun _ => false)) th f s)

/-- AND (R246, R247). -/
def execAnd (th : Thr) (f : Form) (s : State) : Result := .next (alu3 .andOp tlTag false (gZN (· &&& ·)) th f s)

/-- OR (R246, R247). -/
def execOr (th : Thr) (f : Form) (s : State) : Result := .next (alu3 .orOp tlTag false (gZN (· ||| ·)) th f s)

/-- XOR (R246, R247). -/
def execXor (th : Thr) (f : Form) (s : State) : Result := .next (alu3 .xorOp tlTag false (gZN (· ^^^ ·)) th f s)

/-- SHL (R246, R247). -/
def execShl (th : Thr) (f : Form) (s : State) : Result := .next (alu3 .shl tiTag false (gSh shlOp) th f s)

/-- SHR (R246, R247). -/
def execShr (th : Thr) (f : Form) (s : State) : Result := .next (alu3 .shr tiTag false (gSh shrOp) th f s)

/-- SAR (R246, R247). -/
def execSar (th : Thr) (f : Form) (s : State) : Result := .next (alu3 .sar tiTag false (gSh sarOp) th f s)

/-- ADDC (R246, R247). -/
def execAddc (th : Thr) (f : Form) (s : State) : Result := .next (alu3 .addc tiTag true (gAdd (fun t => t.c)) th f s)

/-- SUBC (R246, R247). -/
def execSubc (th : Thr) (f : Form) (s : State) : Result := .next (alu3 .subc tiTag true (gSub (fun t => t.c)) th f s)

/-- MUL (R246, R247). -/
def execMul (th : Thr) (f : Form) (s : State) : Result := .next (alu3 .mul tiTag false (gZN (· * ·)) th f s)

/-- ROL (R246, R247). -/
def execRol (th : Thr) (f : Form) (s : State) : Result := .next (alu3 .rol tiTag false (gZN (fun a b => rolOp a b.toNat)) th f s)

/-- MIN (R247). -/
def execMin (th : Thr) (f : Form) (s : State) : Result := .next (minMax .minOp true true th f s)

/-- MAX (R247). -/
def execMax (th : Thr) (f : Form) (s : State) : Result := .next (minMax .maxOp false true th f s)

/-- MINU (R247). -/
def execMinu (th : Thr) (f : Form) (s : State) : Result := .next (minMax .minu true false th f s)

/-- MAXU (R247). -/
def execMaxu (th : Thr) (f : Form) (s : State) : Result := .next (minMax .maxu false false th f s)

/-- ADDI (R246, R247). -/
def execAddi (th : Thr) (f : Form) (s : State) : Result := .next (aluI .addi taAdd (gAdd (fun _ => false)) th f s)

/-- SUBI (R246, R247). -/
def execSubi (th : Thr) (f : Form) (s : State) : Result := .next (aluI .subi taSub (gSub (fun _ => false)) th f s)

/-- ANDI (R246, R247). -/
def execAndi (th : Thr) (f : Form) (s : State) : Result := .next (aluI .andi tiTag (gZN (· &&& ·)) th f s)

/-- ORI (R246, R247). -/
def execOri (th : Thr) (f : Form) (s : State) : Result := .next (aluI .ori tiTag (gZN (· ||| ·)) th f s)

/-- XORI (R246, R247). -/
def execXori (th : Thr) (f : Form) (s : State) : Result := .next (aluI .xori tiTag (gZN (· ^^^ ·)) th f s)

/-- SHLI (R246, R247). -/
def execShli (th : Thr) (f : Form) (s : State) : Result := .next (aluI .shli tiTag (gSh shlOp) th f s)

/-- SHRI (R246, R247). -/
def execShri (th : Thr) (f : Form) (s : State) : Result := .next (aluI .shri tiTag (gSh shrOp) th f s)

/-- SARI (R246, R247). -/
def execSari (th : Thr) (f : Form) (s : State) : Result := .next (aluI .sari tiTag (gSh sarOp) th f s)

/-- ROLI (R246, R247). -/
def execRoli (th : Thr) (f : Form) (s : State) : Result := .next (aluI .roli tiTag (gZN (fun a b => rolOp a b.toNat)) th f s)

/-- CMP: the flags of rd − rs (R246); TC. -/
def execCmp (th : Thr) (f : Form) (s : State) : Result := .next (petal .cmp th f s (cmpOpn tcOk)
  (fun x s => commitT x (setZNCV (aluSub (valR x.t x.rd) (valR x.t x.rs) false)) s))

/-- CMPI: the flags of rd − imm; rd must be INT. -/
def execCmpi (th : Thr) (f : Form) (s : State) : Result := .next (petal .cmpi th f s (fun x => opInt [x.rd] [])
  (fun x s => commitT x (setZNCV (aluSub (valR x.t x.rd) x.f.imm false)) s))

/-- TST: Z and N of rd AND rs; TL. -/
def execTst (th : Thr) (f : Form) (s : State) : Result := .next (petal .tst th f s (cmpOpn (fun a b => (tlTag a b).isSome))
  (fun x s => commitT x (setZN (valR x.t x.rd &&& valR x.t x.rs)) s))

/-- TSTI: Z and N of rd AND imm. -/
def execTsti (th : Thr) (f : Form) (s : State) : Result := .next (petal .tsti th f s (fun x => opInt [x.rd] [])
  (fun x s => commitT x (setZN (valR x.t x.rd &&& x.f.imm)) s))

/-- NOT: the complement, or 1 − rs for a BOOL (R246); Z and N. -/
def execNot (th : Thr) (f : Form) (s : State) : Result := .next (petal .notOp th f s
  (fun x => { reads := [x.rs], moves := [], dsts := [x.rd], ok := fun t => tagR t x.rs == tINT || tagR t x.rs == tBOOL })
  (fun x s =>
    let b := !x.plain && tagR x.t x.rs == tBOOL
    let r := if b then 1 - valR x.t x.rs else ~~~(valR x.t x.rs)
    commitT x (fun t => setG (setZN r t) x.rd (tvOf x.plain r (if b then tBOOL else tINT))) s))

/-- NEG: 0 − rs. -/
def execNeg (th : Thr) (f : Form) (s : State) : Result := .next (alu2 .neg (fun t a => gSub (fun _ => false) t 0 a) th f s)

/-- SEXTB. -/
def execSextb (th : Thr) (f : Form) (s : State) : Result := .next (alu2 .sextb (fun t a => (t, w32i (sgn 8 a.toNat))) th f s)

/-- SEXTH. -/
def execSexth (th : Thr) (f : Form) (s : State) : Result := .next (alu2 .sexth (fun t a => (t, w32i (sgn 16 a.toNat))) th f s)

/-- ZEXTB. -/
def execZextb (th : Thr) (f : Form) (s : State) : Result := .next (alu2 .zextb (fun t a => (t, w32 (bits a 7 0))) th f s)

/-- ZEXTH. -/
def execZexth (th : Thr) (f : Form) (s : State) : Result := .next (alu2 .zexth (fun t a => (t, w32 (bits a 15 0))) th f s)

/-- BSWAP. -/
def execBswap (th : Thr) (f : Form) (s : State) : Result := .next (alu2 .bswap (fun t a => (t, bswapW a)) th f s)

/-- CLZ. -/
def execClz (th : Thr) (f : Form) (s : State) : Result := .next (alu2 .clz (fun t a => (t, w32 (clzN a 32))) th f s)

/-- CTZ. -/
def execCtz (th : Thr) (f : Form) (s : State) : Result := .next (alu2 .ctz (fun t a => (t, w32 (ctzN a 0 32))) th f s)

/-- POPC. -/
def execPopc (th : Thr) (f : Form) (s : State) : Result := .next (alu2 .popc (fun t a => (t, w32 (popcN a))) th f s)

/-- BREV. -/
def execBrev (th : Thr) (f : Form) (s : State) : Result := .next (alu2 .brev (fun t a => (t, brevW a)) th f s)

/-- MULW: the signed 64-bit product. -/
def execMulw (th : Thr) (f : Form) (s : State) : Result := .next (mulWide .mulw (fun a b => a.toInt * b.toInt) th f s)

/-- MULWU: the unsigned 64-bit product. -/
def execMulwu (th : Thr) (f : Form) (s : State) : Result := .next (mulWide .mulwu (fun a b => (a.toNat : Int) * (b.toNat : Int)) th f s)

/-- DIV. -/
def execDiv (th : Thr) (f : Form) (s : State) : Result := .next (divOp .divOp true divS th f s)

/-- DIVU. -/
def execDivu (th : Thr) (f : Form) (s : State) : Result := .next (divOp .divu false (fun a b => a / b) th f s)

/-- REM. -/
def execRem (th : Thr) (f : Form) (s : State) : Result := .next (divOp .rem true remS th f s)

/-- REMU. -/
def execRemu (th : Thr) (f : Form) (s : State) : Result := .next (divOp .remu false (fun a b => a % b) th f s)

end Sys2Proof.Machine
end

