-- ==== Sys2Proof/Machine/PetalMem.lean ====
section
/-! DEFINITION. Core-local loads and stores, the header window and control transfer (07_petal_encoding.md R222, R237,
08_petal_core_ops.md R249 to R255). -/

namespace Sys2Proof.Machine

/-- A fault code's INFO2 for an address formed without wrapping: its low 32 bits. -/
def eaInfo (ea : Int) : Nat := (w32i ea).toNat

/-- Steps 11 and 12 of 07 R235 for a core-local access of `n` bytes: the fault, if any. -/
def cmAddrFault (ea : Int) (n : Nat) : Option Nat :=
  if ea < 0 || 0x1FFFF < ea + (n : Int) - 1 then some 3
  else if ea % (n : Int) ≠ 0 then some 4 else none

/-- An uncorrectable error in core-local memory: an SRAM record and CORE_ECC (06 R195, 18 R473). The memory's id in UNIT
is a free value. -/
def cmBad (x : PCx) (a : Nat) (s : State) : PRes :=
  let (u, s) := drawWord s
  .hw (ercReport 0x80 2 2 (bits u 23 0) a (some (tinst s x.tid)) s) 0x18

/-- The outcome of the word's tag for a load in a tagged posy (07 R222): a fault code, or the result tag. -/
def ldTag (f : Form) (n wt : Nat) : Except Nat Nat :=
  if n < 4 then (if wt = tINT then .ok tINT else .error 2)
  else if f.size = 4 then (if tmOk wt then .ok wt else .error 2)
  else if wt = tPOISON then .error 8
  else if wt ≤ 7 then .ok wt else .error 2

/-- A load from an effective address. -/
def ldBody (sx : Bool) (ea : PCx → Int) (x : PCx) (s : State) : PRes :=
  let n := sizeBytes x.f
  let e := ea x
  match cmAddrFault e n with
  | some k => .flt s k (eaInfo e)
  | none =>
    let a := e.toNat
    if x.f.err.val = 2 then cmBad x a s
    else if cmPoison s x.core a then .flt s 8 0
    else
      let v := cmRead s x.core a n
      let w := if sx then w32i (sgn (8 * n) v) else w32 v
      if x.plain then commitT x (fun t => setG t x.rd (tvInt w)) s
      else match ldTag x.f n (cmTag s x.core a) with
        | .error k => .flt s k 0
        | .ok tag =>
          let s := if tag = tBUF then cmWordTag x.core a TV.void s else s
          commitT x (fun t => setG t x.rd { v := w, tag := tag }) s

/-- A store of register `r` to an effective address. -/
def stBody (r : Nat) (ea : PCx → Int) (x : PCx) (s : State) : PRes :=
  let n := sizeBytes x.f
  let e := ea x
  match cmAddrFault e n with
  | some k => .flt s k (eaInfo e)
  | none =>
    let a := e.toNat
    let v := valR x.t r
    if x.plain then
      let s := cmWrite x.core a n v.toNat s
      .ok (if n = 4 then cmSetPoison x.core a false s else s)
    else
      let wt := cmTag s x.core a
      if n < 4 then
        if wt = tINT then .ok (cmWrite x.core a n v.toNat s)
        else if wt = tVOID then .ok (cmSetTag x.core a tINT (cmWrite x.core a n v.toNat (cmWrite x.core (a / 4 * 4) 4 0 s)))
        else .flt s 2 0
      else if wt = tBUF || !tmOk wt then .flt s 2 0
      else commitT x (unBuf false r) (cmWordTag x.core a { v := v, tag := tagR x.t r } s)

/-- The tag rule of a store's value register: INT for B and H; any legal tag but VOID for W; any for T (07 R222). -/
def stOpn (x : PCx) (addr : List Nat) (r : Nat) : Opn :=
  let n := sizeBytes x.f
  if n < 4 then opInt (r :: addr) []
  else if x.f.size = 4 then
    { reads := addr, moves := [r], dsts := [], ok := fun t => addr.all (fun q => tagR t q == tINT) }
  else { reads := r :: addr, moves := [], dsts := [],
         ok := fun t => addr.all (fun q => tagR t q == tINT) && decide (tagR t r ≤ 7) }

/-- Base plus displacement of LD, LDS and HLD. -/
def eaRs (x : PCx) : Int := eaDisp (valR x.t x.rs) x.f.imm

/-- The sum rs + rt. -/
def eaRsRt (x : PCx) : Int := eaSum (valR x.t x.rs) (valR x.t x.rt)

/-- LD (R249, 07 R222). -/
def execLd (th : Thr) (f : Form) (s : State) : Result :=
  .next (petal .ld th f s (fun x => opInt [x.rs] [x.rd]) (ldBody false eaRs))

/-- LDX. -/
def execLdx (th : Thr) (f : Form) (s : State) : Result :=
  .next (petal .ldx th f s (fun x => opInt [x.rs, x.rt] [x.rd]) (ldBody false eaRsRt))

/-- LDS: sign-extended. -/
def execLds (th : Thr) (f : Form) (s : State) : Result :=
  .next (petal .lds th f s (fun x => opInt [x.rs] [x.rd]) (ldBody true eaRs))

/-- LDSX: sign-extended. -/
def execLdsx (th : Thr) (f : Form) (s : State) : Result :=
  .next (petal .ldsx th f s (fun x => opInt [x.rs, x.rt] [x.rd]) (ldBody true eaRsRt))

/-- ST: rd is the base and rs the value. -/
def execSt (th : Thr) (f : Form) (s : State) : Result :=
  .next (petal .st th f s (fun x => stOpn x [x.rd] x.rs)
    (fun x s => stBody x.rs (fun x => eaDisp (valR x.t x.rd) x.f.imm) x s))

/-- STX: rs and rt form the address and rd is the value. -/
def execStx (th : Thr) (f : Form) (s : State) : Result :=
  .next (petal .stx th f s (fun x => stOpn x [x.rs, x.rt] x.rd) (fun x s => stBody x.rd eaRsRt x s))

/-- The thread's PKT is VOID: a packet instruction raises NO_PACKET (07 R221). -/
def noPkt (t : Thread) : Bool := t.pkt.tag == tVOID

/-- The packet of the thread's context. -/
def thrPkt (s : State) (tid : Nat) : Pkt :=
  match thrCell s tid with
  | some c => (pktOf s c).getD Pkt.init
  | none => Pkt.init

/-- The size of a packet's header window: 512 bytes on a LONG port, else 256 (04 R129). -/
def winSize (s : State) (p : Pkt) : Nat :=
  match lportRec s p.inPort with
  | some r => if r.long then 512 else 256
  | none => 256

/-- A program read meets an uncorrectable error in the packet buffer (18 R473): an SRAM record and POISON_USE; the frame
is transmitted with its FCS inverted. The memory's id in UNIT and the place are free values. -/
def pktBadRead (x : PCx) (s : State) : PRes :=
  let (u, s) := drawWord s
  let (l, s) := drawWord s
  let s := match thrCell s x.tid with
    | some c => match pktOf s c with
      | some p => setPkt c { p with bad := true } s
      | none => s
    | none => s
  .flt (ercReport 0x80 2 2 (bits u 23 0) l.toNat (some (tinst s x.tid)) s) 8 0

/-- A header-window load at an offset (R252). -/
def hldBody (ofs : PCx → Int) (x : PCx) (s : State) : PRes :=
  if noPkt x.t then .flt s 9 0
  else if x.f.err.val = 2 then pktBadRead x s
  else
    let p := thrPkt s x.tid
    let n := sizeBytes x.f
    let e := ofs x
    if e < 0 || (min p.win.length (winSize s p) : Int) < e + (n : Int) then .flt s 3 (eaInfo e)
    else commitT x (fun t => setG t x.rd (tvInt (w32 (beVal (sliceB p.win e.toNat n))))) s

/-- HLD: rs is a header offset. -/
def execHld (th : Thr) (f : Form) (s : State) : Result :=
  .next (petal .hld th f s
    (fun x => { reads := [x.rs], moves := [], dsts := [x.rd], ok := fun t => tagR t x.rs == tHOFS }) (hldBody eaRs))

/-- HLDX: rs is a header offset and rt INT. -/
def execHldx (th : Thr) (f : Form) (s : State) : Result :=
  .next (petal .hldx th f s
    (fun x => { reads := [x.rs, x.rt], moves := [], dsts := [x.rd],
                ok := fun t => tagR t x.rs == tHOFS && tagR t x.rt == tINT }) (hldBody eaRsRt))

/-- HOFS, HLEN and HTYPE read the parse result in the thread's context block: the field [hi:lo] of its entry (R253). -/
def hdrBody (hi lo tag : Nat) (x : PCx) (s : State) : PRes :=
  if noPkt x.t then .flt s 9 0
  else
    let b := cblk x.tid + 0x20
    let h := x.f.imm.toNat
    let absent := decide (nbits (cmRead s x.core b 4) 31 27 ≤ h)
    let v := if absent then 0 else nbits (cmRead s x.core (b + 16 + 4 * h) 4) hi lo
    if cmPoison s x.core b || (!absent && cmPoison s x.core (b + 16 + 4 * h)) then .flt s 8 0
    else commitT x (fun t => setG { t with z := absent } x.rd (tvOf x.plain (w32 v) tag)) s

/-- HOFS. -/
def execHofs (th : Thr) (f : Form) (s : State) : Result :=
  .next (petal .hofs th f s (fun x => opNone [x.rd]) (hdrBody 8 0 tHOFS))

/-- HLEN. -/
def execHlen (th : Thr) (f : Form) (s : State) : Result :=
  .next (petal .hlen th f s (fun x => opNone [x.rd]) (hdrBody 20 12 tINT))

/-- HTYPE. -/
def execHtype (th : Thr) (f : Form) (s : State) : Result :=
  .next (petal .htype th f s (fun x => opNone [x.rd]) (hdrBody 31 24 tINT))

/-- The target of a branch as an address. -/
def brPc (x : PCx) : Nat := (brTarget x.f x.next).toNat

/-- The value CALL and LEA write. -/
def codeTV (plain : Bool) (a : Nat) : TV := tvOf plain (w32 a) tCODE

/-- BR. -/
def execBr (th : Thr) (f : Form) (s : State) : Result :=
  .next (petal .br th f s (fun _ => opNone []) (fun x s => .jump s (brPc x)))

/-- BCC (07 R231). -/
def execBcc (th : Thr) (f : Form) (s : State) : Result :=
  .next (petal .bcc th f s (fun _ => { opNone [] with reads := [16] })
    (fun x s => if bccHolds x.t x.rd then .jump s (brPc x) else .ok s))

/-- CALL: LNK is a destination (R255). -/
def execCall (th : Thr) (f : Form) (s : State) : Result :=
  .next (petal .call th f s (fun _ => opNone [15])
    (fun x s => .jump (thrMod x.tid (fun t => setG t 15 (codeTV x.plain x.next)) s) (brPc x)))

/-- A register target: class TX, and OPERAND_BAD with any of bits [31:19] set (R254). -/
def txOpn (r : Nat) (dsts : List Nat) : Opn :=
  { reads := [r], moves := [], dsts := dsts, ok := fun t => tagR t r == tCODE }

/-- CALLR: rs is read before LNK is written. -/
def execCallr (th : Thr) (f : Form) (s : State) : Result :=
  .next (petal .callr th f s (fun x => txOpn x.rs [15])
    (fun x s =>
      let a := (valR x.t x.rs).toNat
      if 524287 < a then .flt s 0x0B 0
      else .jump (thrMod x.tid (fun t => setG t 15 (codeTV x.plain x.next)) s) a))

/-- JMPR. -/
def execJmpr (th : Thr) (f : Form) (s : State) : Result :=
  .next (petal .jmpr th f s (fun x => txOpn x.rs [])
    (fun x s => if 524287 < (valR x.t x.rs).toNat then .flt s 0x0B 0 else .jump s (valR x.t x.rs).toNat))

/-- RET. -/
def execRet (th : Thr) (f : Form) (s : State) : Result :=
  .next (petal .ret th f s (fun _ => txOpn 15 [])
    (fun x s => if 524287 < (valR x.t 15).toNat then .flt s 0x0B 0 else .jump s (valR x.t 15).toNat))

/-- Start a loop level, or with a count of 0 continue at its end (07 R237). -/
def loopBody (count : PCx → Word) (x : PCx) (s : State) : PRes :=
  let le := x.next + x.f.imm.toNat
  if 4 ≤ x.t.depth then .flt s 6 0
  else if count x = 0 then .jump s le
  else commitT x (fun t => { setLv t t.depth { ls := x.next, le := le, lc := count x } with depth := t.depth + 1 }) s

/-- LOOP. -/
def execLoop (th : Thr) (f : Form) (s : State) : Result :=
  .next (petal .loopOp th f s (fun x => opInt [x.rd] []) (loopBody (fun x => valR x.t x.rd)))

/-- LOOPI: the register byte is the count. -/
def execLoopi (th : Thr) (f : Form) (s : State) : Result :=
  .next (petal .loopi th f s (fun _ => opNone []) (loopBody (fun x => w32 (x.rd * 16 + x.rs))))

/-- LEA. -/
def execLea (th : Thr) (f : Form) (s : State) : Result :=
  .next (petal .lea th f s (fun x => opNone [x.rd]) (fun x s => commitT x (fun t => setG t x.rd (codeTV x.plain (brPc x))) s))

/-- BREAK: under a debugger session the thread stops before it, in the session's mode; else the fault BREAK (06 R208). -/
def execBreak (th : Thr) (f : Form) (s : State) : Result :=
  .next (petal .breakOp th f s (fun _ => opNone [])
    (fun x s => if dbgHeld s (tinst s x.tid) then .wait (stopThread (rb s 0x280800C 0) x.tid s) else .flt s 0x0E 0))

/-- NOP. `raw` is empty for NOP itself; otherwise it is what the core fetched where the bytes encode no instruction, and
the thread takes the fault of 07 R235. -/
def execNop (th : Thr) (f : Form) (raw : List Byte) (s : State) : Result :=
  .next (if raw.isEmpty then petal .nop th f s (fun _ => opNone []) (fun _ s => .ok s) else petalIllegal th raw s)

end Sys2Proof.Machine
end

