-- ==== Sys2Proof/Machine/PetalSys.lean ====
section
/-! DEFINITION. Tags and special registers, supervisor instructions, assertions and journal marks
(08_petal_core_ops.md R256 to R264, 09_petal_packet_ops.md R288), and the recorded inputs of a replay (18 R500, R501). -/

namespace Sys2Proof.Machine

/-- A replay diverges (18 R501): the thread is stopped as by STOP_HOLD and the place is reported. -/
def rpDiverge (tid : Nat) (s : State) : State :=
  let pc := (thr s tid).pc
  let s := stopThread false tid s
  let s := { s with jnl := { s.jnl with rp := .diverged, rpDiv := (s.jnl.rpJseq, tid / 8, tid % 8, pc) } }
  rset (rset s 0x401308 (w32 s.jnl.rpJseq)) 0x40130C (w32 pc)

/-- A nondeterministic input of kind `k` for a thread: the recorded word in a replay, else the live one; none means the
replay diverged (18 R500, R501). -/
def ndInput (k tid live : Nat) (s : State) : Option Nat × State :=
  if inReplay s tid then
    match rpNext s with
    | some r =>
      if rpKind r = k && nbits ((r[0]?).getD 0) 41 40 = (thrPkt s tid).pass then (some ((r[1]?).getD 0), rpTake s)
      else (none, rpDiverge tid s)
    | none => (none, rpDiverge tid s)
  else (some live, s)

/-- TAGOF (R256): the operand is not consumed, and POISON is no fault. -/
def execTagof (th : Thr) (f : Form) (s : State) : Result :=
  .next (petal .tagof th f s (fun x => { reads := [], moves := [x.rs], dsts := [x.rd], ok := fun _ => true })
    (fun x s => commitT x (fun t => setG t x.rd (tvInt (if x.plain then 0 else w32 (tagR x.t x.rs)))) s))

/-- TAGSET (R256). -/
def execTagset (th : Thr) (f : Form) (s : State) : Result :=
  .next (petal .tagset th f s
    (fun x =>
      let k := x.f.imm.toNat
      { reads := [x.rd], moves := [], dsts := [],
        ok := fun t => [tINT, tBOOL, tHOFS, tTIME].contains (tagR t x.rd) && [tINT, tBOOL, tHOFS, tTIME].contains k })
    (fun x s =>
      if x.plain then .ok s
      else
        let v := valR x.t x.rd
        let k := x.f.imm.toNat
        commitT x (fun t => setG t x.rd { v := if k = tBOOL && v != 0 then 1 else v, tag := k }) s))

/-- The value of a special register that reads as INT (07 R216). -/
def sprVal (s : State) (x : PCx) (k : Nat) : Word :=
  if k = 0 then flWord x.plain x.t
  else if k = 1 then w32 (x.core * 256 + x.tid % 8)
  else if k = 2 then w32 ((corePosy s x.core).elim 0xFF (·.id))
  else if k = 3 then w32 (tinst s x.tid)
  else if k < 12 then w32 (lvOf x.t (k - 8)).ls
  else if k < 16 then w32 (lvOf x.t (k - 12)).le
  else if k < 20 then (lvOf x.t (k - 16)).lc
  else w32 x.t.depth

/-- MFS (07 R216, R257): the handle moves out of PKT in a tagged posy and is copied in a plain32 one. -/
def execMfs (th : Thr) (f : Form) (s : State) : Result :=
  .next (petal .mfs th f s (fun x => { opNone [x.rd] with reads := if x.f.imm = 0 then [16] else [] })
    (fun x s =>
      if x.f.imm = 4 then
        commitT x (fun t => { setG t x.rd (tvOf x.plain t.pkt.v t.pkt.tag) with pkt := if x.plain then t.pkt else TV.void }) s
      else commitT x (fun t => setG t x.rd (tvInt (sprVal s x x.f.imm.toNat))) s))

/-- MTS (R257): FL and LC take INT; PKT takes only the handle of the packet whose context the thread holds. -/
def execMts (th : Thr) (f : Form) (s : State) : Result :=
  .next (petal .mts th f s
    (fun x =>
      if x.f.imm = 4 then { reads := [x.rs], moves := [], dsts := [], ok := fun t => tagR t x.rs == tBUF && noPkt t }
      else opInt [x.rs] [])
    (fun x s =>
      let v := valR x.t x.rs
      let k := x.f.imm.toNat
      if k = 0 then commitT x (fun t => { t with z := bit v 0, n := bit v 1, c := bit v 2, v := bit v 3 }) s
      else if k = 4 then
        match thrCell s x.tid with
        | some c =>
          if v = pktHandle (tinst s x.tid) c then
            commitT x (fun t => { unBuf x.plain x.rs t with pkt := { v := v, tag := tBUF } }) s
          else .flt s 0x0B 0
        | none => .flt s 0x0B 0
      else
        let l := k - 16
        commitT x (fun t => if l < t.depth then setLv t l { lvOf t l with lc := v } else t) s))

/-- The handle of a table (R260); its value is opaque. -/
def tblHandle (t : Nat) : Word := Config.tblMask + w32 t

/-- TBLH (R260). -/
def execTblh (th : Thr) (f : Form) (s : State) : Result :=
  .next (petal .tblh th f s (fun x => opNone [x.rd])
    (fun x s => match tgeoRec s x.f.imm.toNat with
      | some r =>
        if r.inst = tinst s x.tid then commitT x (fun t => setG t x.rd (tvOf x.plain (tblHandle x.f.imm.toNat) tTBL)) s
        else .flt s 0x0A 0
      | none => .flt s 0x0A 0))

/-- How far a core's clock copies lie behind (R258). -/
def clockLag (c : Nat) : Nat := Config.clockLag c % 5

/-- The PTP time a core reads, as seconds and nanoseconds: its copy's lag applies once the last SET or STEP lies behind
it (R258). -/
def ptpSeen (s : State) (c : Nat) : Nat × Nat :=
  let t := s.clk.sec * 1000000000 + s.clk.ns
  let t := if s.clk.jumpAt + clockLag c ≤ s.clk.fab then t - clockLag c else t
  (t / 1000000000, t % 1000000000)

/-- RDTIME (R258): source 0 the FAB count, 1 the PTP nanoseconds with the seconds latched, 2 the latch. The value is a
journal input (R259). -/
def execRdtime (th : Thr) (f : Form) (s : State) : Result :=
  .next (petal .rdtime th f s (fun x => opNone [x.rd])
    (fun x s =>
      let k := x.rs
      let live := if k = 0 then (s.clk.fab - clockLag x.core) % 2 ^ 32
        else if k = 1 then (ptpSeen s x.core).2 else x.t.secLatch.toNat
      match ndInput 1 x.tid live s with
      | (none, s) => .wait s
      | (some v, s) =>
        let v := v % 2 ^ 32
        let s := jnlInput 1 (jwho s x.tid) [k * 2 ^ 32 + v] s
        let sec := w32 (ptpSeen s x.core).1
        commitT x (fun t => setG { t with secLatch := if k = 1 then sec else t.secLatch } x.rd
          (tvOf x.plain (w32 v) (if k = 2 then tINT else tTIME))) s))

/-- RAND (R259): a free value, recorded as a journal input. -/
def execRand (th : Thr) (f : Form) (s : State) : Result :=
  .next (petal .rand th f s (fun x => opNone [x.rd])
    (fun x s =>
      let (w, s) := drawWord s
      match ndInput 2 x.tid w.toNat s with
      | (none, s) => .wait s
      | (some v, s) =>
        let s := jnlInput 2 (jwho s x.tid) [v % 2 ^ 32] s
        commitT x (fun t => setG t x.rd (tvInt (w32 v))) s))

/-- A thread identifier of R261: the thread it names, or none for a breach of the layout. -/
def thrId (v : Word) (kind0 : Bool) : Option Nat :=
  if bits v 31 20 != 0 || (!kind0 && bits v 19 16 != 0) || bits v 7 3 != 0 || decide (131 < bits v 15 8) then none
  else some (tidOf (bits v 15 8) (bits v 2 0))

/-- A thread of another instance, or of a core that belongs to none (R197). -/
def thrForeign (s : State) (tid other : Nat) : Bool := coreInst s (other / 8) != some (tinst s tid)

/-- The target a supervisor instruction names: a fault code, or the thread. `sup`: it must lie within the executing
thread's supervision (R197, R261). -/
def thrTarget (s : State) (tid : Nat) (v : Word) (kind0 sup : Bool) : Except Nat Nat :=
  match thrId v kind0 with
  | none => .error 0x0B
  | some o =>
    if thrForeign s tid o then .error 0x0A
    else if sup && !supervises s tid (o / 8) then .error 0x0B else .ok o

/-- BOUND or HELD. -/
def bndHeld (t : Thread) : Bool := decide (t.st = .bound) || decide (t.st = .held)

/-- SETT (R262): kind 0 a g-register, 1 the PC, 2 BASE_PRIO. -/
def execSett (th : Thr) (f : Form) (s : State) : Result :=
  .next (petal .sett th f s
    (fun x =>
      if x.rt = 0 then { reads := [x.rs], moves := [x.rd], dsts := [], ok := fun t => tagR t x.rs == tINT }
      else { reads := [x.rs, x.rd], moves := [], dsts := [],
             ok := fun t => tagR t x.rs == tINT && (tagR t x.rd == tINT || (x.rt == 1 && tagR t x.rd == tCODE)) })
    (fun x s =>
      let v := valR x.t x.rd
      match thrTarget s x.tid (valR x.t x.rs) (x.rt == 0) true with
      | .error k => .flt s k 0
      | .ok o =>
        if (x.rt = 1 && decide (524287 < v.toNat)) || (x.rt = 2 && decide (3 < v.toNat)) then .flt s 0x0B 0
        else if !bndHeld (thr s o) then commitT x (fun t => { t with z := false }) s
        else if x.rt = 0 then
          let r := bits (valR x.t x.rs) 19 16
          if !x.plain && tagR (thr s o) r == tBUF then .flt s 2 0
          else
            let s := thrMod o (fun t => setG t r (tvRead x.plain x.t x.rd)) s
            commitT x (fun t => { unBuf x.plain x.rd t with z := true }) s
        else if x.rt = 1 then commitT x (fun t => { t with z := true }) (thrMod o (fun t => { t with pc := v.toNat }) s)
        else commitT x (fun t => { t with z := true }) (thrMod o (fun t => { t with base := v.toNat }) s)))

/-- RELT (R197): BOUND to READY. -/
def execRelt (th : Thr) (f : Form) (s : State) : Result :=
  .next (petal .relt th f s (fun x => opInt [x.rs] [])
    (fun x s => match thrTarget s x.tid (valR x.t x.rs) false true with
      | .error k => .flt s k 0
      | .ok o =>
        if (thr s o).st = .bound then
          commitT x (fun t => { t with z := true }) (thrMod o (fun t => { t with st := .ready, runAt := s.clk.fab }) s)
        else commitT x (fun t => { t with z := false }) s))

/-- Apply a disposition to a HELD thread (06 R204): 0 RESUME, 1 SKIP, 2 DROP. -/
def fdispApply (o d : Nat) (fl : FltRec) (s : State) : State :=
  if d = 2 then thrDrop o 0x44 (entryOf s o (isSup s o)) s
  else thrMod o (fun t =>
    let t := { t with st := .ready, flt := none, runAt := t.runAt + (s.clk.fab - fl.since) }
    if d = 1 then advance fl.skipTo t else t) s

/-- FDISP with a disposition. -/
def fdispBody (d : Nat) (x : PCx) (s : State) : PRes :=
  match thrTarget s x.tid (valR x.t x.rs) false true with
  | .error k => .flt s k 0
  | .ok o => match (thr s o).st, (thr s o).flt with
    | .held, some fl => commitT x (fun t => { t with z := true }) (fdispApply o d fl s)
    | _, _ => commitT x (fun t => { t with z := false }) s

/-- FDISP RESUME (06 R204): the faulting instruction is executed again. -/
def execFdispResume (th : Thr) (f : Form) (s : State) : Result :=
  .next (petal .fdisp th { f with imm := 0 } s (fun x => opInt [x.rs] []) (fdispBody 0))

/-- FDISP SKIP (06 R204): the thread continues after the faulting instruction, under the end-of-body rule. -/
def execFdispSkip (th : Thr) (f : Form) (s : State) : Result :=
  .next (petal .fdisp th { f with imm := 1 } s (fun x => opInt [x.rs] []) (fdispBody 1))

/-- FDISP DROP (06 R204): the thread's item is dropped and the thread restarts. -/
def execFdispDrop (th : Thr) (f : Form) (s : State) : Result :=
  .next (petal .fdisp th { f with imm := 2 } s (fun x => opInt [x.rs] []) (fdispBody 2))

/-- The item of a thread GETT reads (R263). -/
def gettVal (plain : Bool) (tt : Thread) (te : Bool) (k : Nat) : TV :=
  if k < 16 then
    let tag := tagR tt k
    if plain then tvInt (valR tt k)
    else if tag = tBUF then TV.void
    else if tag = tKEY then { v := 0, tag := tKEY }
    else { v := valR tt k, tag := tag }
  else if k = 16 then tvInt (w32 tt.pc)
  else if k = 17 then tvInt (flWord te tt)
  else tvInt (w32 tt.base)

/-- GETT (R263). -/
def execGett (th : Thr) (f : Form) (s : State) : Result :=
  .next (petal .gett th f s (fun x => opInt [x.rs] [x.rd])
    (fun x s => match thrTarget s x.tid (valR x.t x.rs) false true with
      | .error k => .flt s k 0
      | .ok o =>
        if bndHeld (thr s o) then
          commitT x (fun t => setG { t with z := true } x.rd (gettVal x.plain (thr s o) (plainOf s o) x.f.imm.toNat)) s
        else commitT x (fun t => setG { t with z := false } x.rd (tvInt 0)) s))

/-- The code of a thread state (06 R196). -/
def tstCode : TSt → Nat
  | .off => 0
  | .bound => 1
  | .getw => 2
  | .ready => 3
  | .stall => 4
  | .blocked => 5
  | .held => 6
  | .stopped => 7

/-- The word of CORE_THRSTS for a thread (06 R213). -/
def thrWord (s : State) (o : Nat) : Word :=
  let t := thr s o
  w32 (tstCode t.st * 2 ^ 29 + b2n (isSup s o) * 2 ^ 28 + effPrio s o % 4 * 2 ^ 26 + t.base % 4 * 2 ^ 24 +
    ((corePosy s (o / 8)).elim 0xFF (·.id)) % 256 * 2 ^ 16 + tinst s o % 32)

/-- THRST (R264). -/
def execThrst (th : Thr) (f : Form) (s : State) : Result :=
  .next (petal .thrst th f s (fun x => opInt [x.rs] [x.rd])
    (fun x s => match thrTarget s x.tid (valR x.t x.rs) false false with
      | .error k => .flt s k 0
      | .ok o => commitT x (fun t => setG t x.rd (tvInt (thrWord s o))) s))

/-- EVQLEN (R261). -/
def execEvqlen (th : Thr) (f : Form) (s : State) : Result :=
  .next (petal .evqlen th f s (fun x => opNone [x.rd])
    (fun x s => commitT x (fun t => setG t x.rd (tvInt (w32 t.evq.length))) s))

/-- TRIG (R264). -/
def execTrig (th : Thr) (f : Form) (s : State) : Result :=
  .next (petal .trig th f s (fun x => opInt [x.rs] [])
    (fun x s =>
      let r := jnlTrigger 2 x.f.imm.toNat (valR x.t x.rs) s
      commitT x (fun t => { t with z := r.2 }) r.1))

/-- POSYCAP (R264). -/
def execPosycap (th : Thr) (f : Form) (s : State) : Result :=
  .next (petal .posycap th f s (fun x => opNone [x.rd])
    (fun x s => match posyRec s x.f.imm.toNat with
      | some r =>
        if r.inst = tinst s x.tid then commitT x (fun t => setG t x.rd (tvInt (w32 (capOf s r.id)))) s
        else .flt s 0x0A 0
      | none => .flt s 0x0A 0))

/-- ASSERT (09 R288): rs is INT or BOOL; a failure also requests the journal's ASSERT trigger when that is enabled. The
spec states no data word for it: a free value. -/
def execAssert (th : Thr) (f : Form) (s : State) : Result :=
  .next (petal .assertOp th f s
    (fun x => { reads := [x.rs], moves := [], dsts := [], ok := fun t => tagR t x.rs == tINT || tagR t x.rs == tBOOL })
    (fun x s =>
      if valR x.t x.rs = 0 then
        if rb s 0x408010 1 then
          let (w, s) := drawWord s
          .flt (jnlTrigger 1 (bits x.f.imm 7 0) w s).1 0x0D 0
        else .flt s 0x0D 0
      else .ok s))

/-- JMARK (09 R288): Z tells whether the journal records the marker. -/
def execJmark (th : Thr) (f : Form) (s : State) : Result :=
  .next (petal .jmark th f s (fun x => opInt [x.rs] [])
    (fun x s =>
      let r := jnlInputB 6 (jwho s x.tid) [(valR x.t x.rs).toNat] s
      commitT x (fun t => { t with z := r.2 }) r.1))

end Sys2Proof.Machine
end

