-- ==== Sys2Proof/Machine/PetalLock.lean ====
section
/-! DEFINITION. Locks, atomic operations and events: the Petal instructions and the lock-unit and memory events
(09_petal_packet_ops.md R280 to R284, 11_locks.md). -/

namespace Sys2Proof.Machine

/-- LCK_CNT[i][k] of a thread's instance. -/
def lckRefuse (k : Nat) (s : State) (tid : Nat) : State := cnt (lckCnt (tinst s tid) k) s

/-- Judge a lock number: a form outside `form` is OPERAND_BAD, a lock of another instance ISOLATION (11 R319, R320). -/
def lockFault (s : State) (tid n : Nat) (form : Nat → Bool) : Option Nat :=
  if !form n then some 0x0B
  else if lockInst s n != some (tinst s tid) then some 0x0A else none

/-- A lock number in either form (11 R319). -/
def anyLock (n : Nat) : Bool := isGlobal n || isFast n

/-- A thread requests a lock and blocks until the grant (09 R280). -/
def lockBody (n : PCx → Nat) (form : Nat → Bool) (x : PCx) (s : State) : PRes :=
  let n := n x
  match lockFault s x.tid n form with
  | some k => .flt (lckRefuse 4 s x.tid) k 0
  | none =>
    if (lockOf s n).holder = some x.tid then .flt (lckRefuse 4 s x.tid) 0x0B 0
    else
      let (q, s) := nextSeq s
      let s := thrMod x.tid (fun t => { t with st := .blocked, wait := .lock n, wseq := q, wnext := x.next }) s
      let s := lockGrant n s
      .wait (if (thr s x.tid).st = .blocked then cnt (lckCnt (tinst s x.tid) 1) s else s)

/-- A thread releases a lock it holds; the next waiter is granted (09 R281, 11 R322). -/
def unlockBody (n : PCx → Nat) (form : Nat → Bool) (x : PCx) (s : State) : PRes :=
  let n := n x
  match lockFault s x.tid n form with
  | some k => .flt (lckRefuse 4 s x.tid) k 0
  | none =>
    if (lockOf s n).holder = some x.tid then .ok (lockGrant n (lockRelease n 0 s))
    else .flt (lckRefuse 4 s x.tid) 0x0B 0

/-- The lock number a register names. -/
def lockRs (x : PCx) : Nat := (valR x.t x.rs).toNat

/-- LOCK. -/
def execLock (th : Thr) (f : Form) (s : State) : Result :=
  .next (petal .lock th f s (fun x => opInt [x.rs] []) (lockBody lockRs isGlobal))

/-- LOCKI. -/
def execLocki (th : Thr) (f : Form) (s : State) : Result :=
  .next (petal .locki th f s (fun _ => opNone []) (lockBody (fun x => x.f.imm.toNat) isGlobal))

/-- UNLOCK. -/
def execUnlock (th : Thr) (f : Form) (s : State) : Result :=
  .next (petal .unlock th f s (fun x => opInt [x.rs] []) (unlockBody lockRs isGlobal))

/-- The fast lock an immediate names, of the thread's own cluster (11 R319). -/
def fastOf (s : State) (x : PCx) : Nat := fastLock (clusterOf s x.core) x.f.imm.toNat

/-- FLOCK. -/
def execFlock (th : Thr) (f : Form) (s : State) : Result :=
  .next (petal .flock th f s (fun _ => opNone []) (fun x s => lockBody (fastOf s) isFast x s))

/-- FUNLOCK. -/
def execFunlock (th : Thr) (f : Form) (s : State) : Result :=
  .next (petal .funlock th f s (fun _ => opNone []) (fun x s => unlockBody (fastOf s) isFast x s))

/-- TRYLOCK (09 R281): it takes part in one grant and never waits. -/
def execTrylock (th : Thr) (f : Form) (s : State) : Result :=
  .next (petal .trylock th f s (fun x => opInt [x.rs] [])
    (fun x s =>
      let n := lockRs x
      match lockFault s x.tid n isGlobal with
      | some k => .flt (lckRefuse 4 s x.tid) k 0
      | none =>
        let l := lockOf s n
        if l.holder = some x.tid then .flt (lckRefuse 4 s x.tid) 0x0B 0
        else if l.holder.isSome || !(lockWaiters s n).isEmpty then commitT x (fun t => { t with z := false, v := false }) s
        else
          let s := countGrant n l.status (some (jwho s x.tid)) s
          let s := setLock n { holder := some x.tid, status := l.status } s
          commitT x (fun t => { t with z := true, v := decide (l.status ≠ 0) }) s))

/-- LKSTAT (11 R327). -/
def execLkstat (th : Thr) (f : Form) (s : State) : Result :=
  .next (petal .lkstat th f s (fun x => opInt [x.rs] [x.rd])
    (fun x s => match lockFault s x.tid (lockRs x) anyLock with
      | some k => .flt (lckRefuse 4 s x.tid) k 0
      | none => commitT x (fun t => setG t x.rd (tvInt (lockWord s (lockRs x)))) s))

/-- FRCREL (11 R325, 08 R264): Z tells whether it released a holder. -/
def execFrcrel (th : Thr) (f : Form) (s : State) : Result :=
  .next (petal .frcrel th f s (fun x => opInt [x.rs] [])
    (fun x s => match lockFault s x.tid (lockRs x) anyLock with
      | some k => .flt (lckRefuse 4 s x.tid) k 0
      | none =>
        let held := (lockOf s (lockRs x)).holder.isSome
        commitT x (fun t => { t with z := held }) (lockForce (lockRs x) s)))

/-- A free lock is granted to its highest-ranked waiter (11 R321). -/
def execLockGrant (n : Word) (s : State) : Result :=
  .next (if anyLock n.toNat then lockGrant n.toNat s else s)

/-- DWIN of an instance, in bytes (11 R329). -/
def dwinOf (s : State) (i : Nat) : Nat := rf s (0x3008100 + 4 * i) 16 0 * 1048576

/-- A scratch address lies in the instance's partition (11 R329). -/
def scratchOf (s : State) (i a : Nat) : Bool :=
  let w := rv s (0x3008080 + 4 * i)
  decide (bits w 8 0 * 4096 ≤ a) && decide (a < (bits w 8 0 + bits w 25 16) * 4096)

/-- Judge an atomic address (11 R329): a fault code, or the space (true: DRAM) and the byte address within it. -/
def atomAddr (s : State) (i : Nat) (v : Word) : Except Nat (Bool × Nat) :=
  if bit v 31 then
    let o := dwinOf s i + bits v 30 0
    let size := instF s i (·.dramSize) * 1048576
    if size ≤ o then .error 3
    else if o % 4 ≠ 0 then .error 4
    else .ok (true, instF s i (·.dramBase) * 1048576 + o)
  else
    let a := bits v 20 0
    if bits v 30 21 = 0 && !scratchOf s i a then .error 0x0A
    else if bits v 30 21 ≠ 0 then .error 3
    else if a % 4 ≠ 0 then .error 4
    else .ok (false, a)

/-- An atomic operation commits at issue; its read-modify-write waits for the controller (09 R282, 11 R330). -/
def atomBody (op : Nat) (x : PCx) (s : State) : PRes :=
  let i := tinst s x.tid
  let v := valR x.t x.rs
  match atomAddr s i v with
  | .error k => .flt (lckRefuse 7 s x.tid) k (if k = 3 || k = 4 then v.toNat else 0)
  | .ok (dram, a) =>
    let r : AtomReq := { tid := x.tid, op := op, dram := dram, addr := a, val := valR x.t x.rt, cmp := valR x.t x.rd, rd := x.rd }
    let s := cnt (lckCnt i (if dram then 6 else 5)) { s with lck := { s.lck with atoms := s.lck.atoms ++ [r] } }
    commitT x (fun t => { t with busy := t.busy ++ [x.rd] ++ (if op = 4 then [16] else []) }) s

/-- The operands of an atomic operation: rs and rt; ACAS also reads rd. -/
def atomOpn (cas : Bool) (x : PCx) : Opn := opInt ([x.rs, x.rt] ++ (if cas then [x.rd] else [])) [x.rd]

/-- AFADD. -/
def execAfadd (th : Thr) (f : Form) (s : State) : Result := .next (petal .afadd th f s (atomOpn false) (atomBody 0))

/-- AFAND. -/
def execAfand (th : Thr) (f : Form) (s : State) : Result := .next (petal .afand th f s (atomOpn false) (atomBody 1))

/-- AFOR. -/
def execAfor (th : Thr) (f : Form) (s : State) : Result := .next (petal .afor th f s (atomOpn false) (atomBody 2))

/-- ASWAP. -/
def execAswap (th : Thr) (f : Form) (s : State) : Result := .next (petal .aswap th f s (atomOpn false) (atomBody 3))

/-- ACAS. -/
def execAcas (th : Thr) (f : Form) (s : State) : Result := .next (petal .acas th f s (atomOpn true) (atomBody 4))

/-- The new word of an atomic operation (09 R282). -/
def atomNew (r : AtomReq) (old : Word) : Word :=
  match r.op with
  | 0 => old + r.val
  | 1 => old &&& r.val
  | 2 => old ||| r.val
  | 3 => r.val
  | _ => if old = r.cmp then r.val else old

/-- The old word arrives at the thread: rd, and for ACAS also Z; a thread in STALL goes on (09 R282). -/
def atomArrive (r : AtomReq) (x : TV) (stored : Bool) (s : State) : State :=
  if r.tid = 5000 then s
  else
    let s := thrMod r.tid (fun t =>
      let t := { setG t r.rd x with busy := (t.busy.erase r.rd) }
      if r.op = 4 then { t with z := stored, busy := t.busy.erase 16 } else t) s
    unstall r.tid s

/-- The memory controller performs an atomic operation (11 R330). `k`: its place among those committed; only the oldest
of its thread and space may go. `bad`: an uncorrectable read, which leaves the word unchanged: rd is marked POISON, and an
instruction that reads it raises POISON_USE, in a plain32 posy too (09 R282); its value is a free one. -/
def execAtomicPerform (k : Nat) (bad : Bool) (s : State) : Result :=
  .next (match s.lck.atoms[k]? with
    | none => s
    | some r =>
      if (s.lck.atoms.take k).any (fun q => q.tid == r.tid && q.dram == r.dram) then s
      else
        let s := { s with lck := { s.lck with atoms := s.lck.atoms.eraseIdx k } }
        if bad then
          let (w, s) := drawWord s
          atomArrive r { v := w, tag := tPOISON } false s
        else
          let old := if r.dram then w32 (leVal (memRdN s.dram 0 r.addr 4)) else w32 (leVal (memRdN s.lck.scratch 0 r.addr 4))
          let new := leBytes 4 (atomNew r old).toNat
          let s := if r.dram then { s with dram := memWrN s.dram 0 r.addr new }
            else { s with lck := { s.lck with scratch := memWrN s.lck.scratch 0 r.addr new } }
          atomArrive r (tvInt old) (decide (old = r.cmp)) s)

/-- EVWAIT (09 R283). In a replay a recorded FORCED is taken first (18 R500). -/
def execEvwait (th : Thr) (f : Form) (s : State) : Result :=
  .next (petal .evwait th f s (fun x => opInt [x.rs] [x.rd])
    (fun x s =>
      let n := (valR x.t x.rs).toNat
      if 255 < n then .flt s 0x0B 0
      else
        let rp := if inReplay s x.tid then match rpNext s with
            | some r => if rpKind r = 4 then some ((r[1]?).getD 0) else none
            | none => none
          else none
        match rp with
        | some v => commitT x (fun t => setG { t with z := true, v := true } x.rd (tvInt (w32 v))) (rpTake s)
        | none => match evTake n x.t.pend with
          | some (e, r) =>
            let s := evInput x.tid e s
            commitT x (fun t => setG { t with pend := r, z := true, v := decide (e.code = 0x62) } x.rd (tvInt (w32 e.info))) s
          | none => .wait (thrMod x.tid (fun t => { t with
              st := .blocked, wait := .event n, wnext := x.next, wrd := x.rd }) s)))

/-- EVSIG (09 R284). -/
def execEvsig (th : Thr) (f : Form) (s : State) : Result :=
  .next (petal .evsig th f s (fun x => opInt [x.rd, x.rs] [])
    (fun x s => match thrTarget s x.tid (valR x.t x.rd) false false with
      | .error k => .flt s k 0
      | .ok o =>
        match (thr s o).st with
        | .off => commitT x (fun t => { t with z := false }) s
        | .bound => commitT x (fun t => { t with z := false }) s
        | _ =>
          let r := pendPush o { code := 0x6A, posy := 0xFF, core := x.core, thread := x.tid % 8, pc := 0,
                                info := (valR x.t x.rs).toNat, info2 := 0 } s
          commitT x (fun t => { t with z := r.1 }) r.2))

/-- LCK_SSTS's result field (11 R332). -/
def sstsResult (k : Nat) (s : State) : State := rset s (reqKey .steward 0x3001808) (w32 k)

/-- BUSY of LCK_SSTS: a steward ACQUIRE waits. -/
def stwBusy (s : State) : Bool := s.lck.stwWait.isSome

/-- A command on the lock LCK_SLOCK names, not while BUSY (11 R328). -/
def stwLockRun (g : Nat → State → State) (s : State) : State :=
  if stwBusy s then cfgReject 20 0 s
  else
    let n := (rv s (reqKey .steward 0x3001800)).toNat
    if anyLock n then g n s else cfgReject 20 0 s

/-- A write of LCK_SCMD: every requester but the steward is refused (11 R328); held while STW_UP is 0 (19 R513). -/
def stwLockCmd (r : Req) (op : Nat) (i : Instr) (g : Nat → State → State) (s : State) : State :=
  askedW r 0x3001804 (op * 2 ^ 28) (stwDo i (stwLockRun g)) s

/-- Steward ACQUIRE (11 R328). -/
def stwAcquire (n : Nat) (s : State) : State :=
  if (lockOf s n).holder = some stwId then sstsResult 3 s
  else
    let (q, s) := nextSeq s
    let s := { s with lck := { s.lck with stwWait := some (n, q) } }
    lockGrant n (rset s (reqKey .steward 0x3001808) 0x80000000)

/-- Steward RELEASE (11 R328). -/
def stwRelease (n : Nat) (s : State) : State :=
  if (lockOf s n).holder = some stwId then sstsResult 0 (lockGrant n (lockRelease n 0 s)) else sstsResult 1 s

/-- Steward FORCE (11 R325, R328). -/
def stwForce (n : Nat) (s : State) : State :=
  if (lockOf s n).holder.isSome then sstsResult 0 (lockForce n s) else sstsResult 2 s

/-- LCK_ACQUIRE. -/
def execLckAcquire (r : Req) (s : State) : Result := .next (stwLockCmd r 1 (.lckAcquire r) stwAcquire s)

/-- LCK_RELEASE. -/
def execLckRelease (r : Req) (s : State) : Result := .next (stwLockCmd r 2 (.lckRelease r) stwRelease s)

/-- LCK_FORCE. -/
def execLckForce (r : Req) (s : State) : Result := .next (stwLockCmd r 3 (.lckForce r) stwForce s)

end Sys2Proof.Machine
end

