-- ==== Sys2Proof/Machine/CopCmd.lean ====
section
/-! DEFINITION. What the commands of the shared units do when they are carried out (10_coprocessors.md R298 to R314). -/

namespace Sys2Proof.Machine

/-- What a command answers: STATUS and DETAIL for c0, and the result registers it writes. -/
structure CopRes where
  st  : Nat
  det : Nat
  res : List (Nat × TV)

/-- A status without results. -/
def copSt (n : Nat) : CopRes := { st := n, det := 0, res := [] }

/-- What a command sees: its cluster, its instance, its operands and its thread. -/
structure CopCx where
  k     : Nat
  i     : Nat
  tid   : Nat
  plain : Bool
  ops   : List (Nat × TV)
  /-- The data it reads has an uncorrectable error. -/
  bad   : Bool
  /-- What the pattern engine answers a scan with. -/
  vd    : Word

/-- Operand `n` as a word. -/
def CopCx.w (x : CopCx) (n : Nat) : Word := (creg x.ops n).v
/-- Operand `n` as a number. -/
def CopCx.n (x : CopCx) (n : Nat) : Nat := (x.w n).toNat

/-- Result words as INT from register `r` on. -/
def intRes (r : Nat) (ws : List Word) : List (Nat × TV) := (List.zip (List.range ws.length) ws).map (fun p => (r + p.1, tvInt p.2))

/-- The POISON answer: every result register holds a free value, tagged POISON in a tagged posy (R298). -/
def copPoison (x : CopCx) (rs : List Nat) (s : State) : CopRes × State :=
  let out := rs.foldl (fun (a : List (Nat × TV) × State) r =>
    let d := drawWord a.2
    (a.1 ++ [(r, { v := d.1, tag := if x.plain then tINT else tPOISON })], d.2)) ([], s)
  ({ st := 0x0A, det := 0, res := out.1 }, out.2)

/-- The packet a command's thread holds. -/
def CopCx.cell (x : CopCx) (s : State) : Option Nat := thrCell s x.tid

/-- The buffer in operand `n`, with `len` bytes from `o` inside it, or a status. -/
def CopCx.buf (x : CopCx) (s : State) (n o len : Nat) : Except Nat BufRef :=
  match bufRef s x.i (x.cell s) (x.w n) with
  | .error e => .error e
  | .ok b => if b.size < o + len then .error 6 else .ok b

/-- The generation of a key slot. -/
def keyGen (s : State) (i slot : Nat) : Nat := mget s.cpx.keyGen (i * 128 + slot) 0

/-- The handle of a key slot (R306): opaque. -/
def keyHandle (s : State) (i slot : Nat) : Word := Config.keyMask + w32 (keyGen s i slot * 4096 + i * 128 + slot)

/-- The key a handle names to instance `i`, or a status (R298, R318). -/
def keyOf (s : State) (i : Nat) (h : Word) : Except Nat (List Byte) :=
  let v := (h - Config.keyMask).toNat
  if v / 128 % 32 != i then .error 5
  else if v / 4096 != keyGen s i (v % 128) % 2 ^ 20 then .error 9
  else match mfind s.cpx.keys (i * 128 + v % 128) with
    | some k => .ok k.key
    | none => .error 9

/-- KEYREF (R306). -/
def copKeyref (x : CopCx) (s : State) : CopRes × State :=
  if 127 < x.n 1 then (copSt 6, s)
  else ({ st := 0, det := 0, res := [(2, tvOf x.plain (keyHandle s x.i (x.n 1)) tKEY)] }, s)

/-- A big-endian number held in `k` registers from `r` (R306). -/
def CopCx.big (x : CopCx) (r k : Nat) : Nat := (List.range k).foldl (fun a j => a * 2 ^ 32 + x.n (r + j)) 0

/-- The words of a big-endian number, most significant first. -/
def bigWords (k v : Nat) : List Word := (List.range k).map (fun j => w32 (v / 2 ^ (32 * (k - 1 - j))))

/-- GCM_ENC and GCM_DEC (R306): a mismatch leaves the buffer unchanged. -/
def copGcm (dec : Bool) (x : CopCx) (s : State) : CopRes × State :=
  let n := x.n 4 + x.n 5
  if 16384 < n then (copSt 6, s)
  else match x.buf s 2 (x.n 3) n with
    | .error e => (copSt e, s)
    | .ok b => match keyOf s x.i (x.w 1) with
      | .error e => (copSt e, s)
      | .ok key =>
        if x.bad then copPoison x (if dec then [] else [9, 10, 11, 12]) s
        else
          let d := (bufRead s b (x.n 3) n).map (·.toNat)
          let key := key.map (·.toNat)
          let iv := x.big 6 3
          let aad := d.take (x.n 4)
          let txt := d.drop (x.n 4)
          let out := gcmText key iv txt
          let tag := gcmTag key iv aad (if dec then txt else out)
          if dec && tag != x.big 9 4 then (copSt 8, s)
          else
            let s := bufWrite b (x.n 3 + x.n 4) (out.map by8) s
            ({ st := 0, det := 0, res := if dec then [] else intRes 9 (bigWords 4 tag) }, s)

/-- SHA256 (R306). -/
def copSha (x : CopCx) (s : State) : CopRes × State :=
  if 16384 < x.n 5 then (copSt 6, s)
  else match x.buf s 2 (x.n 3) (x.n 5) with
    | .error e => (copSt e, s)
    | .ok b =>
      if x.bad then copPoison x [8, 9, 10, 11, 12, 13, 14, 15] s
      else ({ st := 0, det := 0, res := intRes 8 (beWords 8 (sha256 (bufRead s b (x.n 3) (x.n 5)))) }, s)

/-- LMS_VERIFY (R306): one signature over a 32-byte digest. -/
def copLms (x : CopCx) (s : State) : CopRes × State :=
  match x.buf s 2 (x.n 3) 56, x.buf s 2 (x.n 4) (x.n 5) with
  | .error e, _ => (copSt e, s)
  | _, .error e => (copSt e, s)
  | .ok b, .ok _ =>
    if x.bad then copPoison x [] s
    else if lmsVerify (bufRead s b (x.n 3) 56) (bufRead s b (x.n 4) (x.n 5)) (beBytes 32 (x.big 8 8)) then (copSt 0, s)
    else (copSt 8, s)

/-- The table operand c1 names to the instance, with its key, or a status (R307, 13 R349, R369). -/
def copTable (x : CopCx) (s : State) : Except Nat (TgeoRec × Option Nat) :=
  let t := (x.w 1 - Config.tblMask).toNat
  match (if t < 255 then tgeoRec s t else none) with
  | none => .error 5
  | some g =>
    if g.inst != x.i then .error 5
    else
      let ks := (List.range 8).map (fun j => x.w (2 + j))
      .ok (g, tblKey g (if g.kind = 1 && g.width = 1 then ks ++ [x.w 12, x.w 13] else ks))

/-- A command on a table is refused with RANGE, and counted (13 R371). -/
def copRange (g : TgeoRec) (s : State) : CopRes × State := (copSt 6, cnt (tblCnt g.table 7) s)

/-- The two words of a result word, for c10 and c11. -/
def resWords (w : Nat) : List (Nat × TV) := intRes 10 [w32 w, w32 (w / 2 ^ 32)]

/-- LOOKUP (R307). -/
def copLookup (x : CopCx) (s : State) : CopRes × State :=
  match copTable x s with
  | .error e => (copSt e, s)
  | .ok (g, none) => copRange g s
  | .ok (g, some k) => match tblLookup g (x.k % 4) k false s with
    | (some w, s) => ({ st := 0, det := 0, res := resWords w }, s)
    | (none, s) => ({ st := 1, det := 0, res := resWords missWord }, s)

/-- A write of a program to a table (R307, 13 R357, R359, R360): `op` as TBL_CMD numbers it. -/
def copTblWrite (op : Nat) (f : TgeoRec → Nat → Nat → State → Nat × State) (x : CopCx) (s : State) : CopRes × State :=
  match copTable x s with
  | .error e => (copSt e, s)
  | .ok (g, none) => copRange g s
  | .ok (g, some k) =>
    if g.kind = 1 then copRange g s
    else
      let r := tblRep g (x.k % 4)
      let out := f g r k s
      if out.1 = 6 then copRange g out.2
      else if out.1 = 0 then (copSt 0, tblWrote g op (2 ^ (x.k % 4)) 0 (jwho out.2 x.tid) out.2)
      else (copSt out.1, out.2)

/-- The staged result word. -/
def CopCx.resWord (x : CopCx) : Nat := x.n 11 * 2 ^ 32 + x.n 10

/-- INSERT (13 R357). -/
def copInsert (x : CopCx) (s : State) : CopRes × State :=
  copTblWrite 1 (fun g r k s => match tblEnt g k x.resWord with
    | some e => tblInsert g r k e s
    | none => (6, s)) x s

/-- UPDATE (13 R359). -/
def copUpdate (x : CopCx) (s : State) : CopRes × State :=
  copTblWrite 2 (fun g r k s => match tblEnt g k x.resWord with
    | some e => tblUpdate g r k e s
    | none => (6, s)) x s

/-- DELETE (13 R359). -/
def copDelete (x : CopCx) (s : State) : CopRes × State := copTblWrite 3 tblDelete x s

/-- HITREAD (R307): its result is a journal input; in a replay the recorded one is taken (18 R500). -/
def copHitread (x : CopCx) (s : State) : CopRes × State :=
  match copTable x s with
  | .error e => (copSt e, s)
  | .ok (g, none) => copRange g s
  | .ok (g, some k) =>
    if g.kind = 1 then copRange g s
    else match tblWays s g (tblRep g (x.k % 4)) k with
      | [] => (copSt 4, s)
      | ws =>
        let h := ws.any (fun p => match entAt s g.table (tblRep g (x.k % 4)) p.1 p.2 with
          | some e => e.hit
          | none => false)
        let r := ndInput 5 x.tid (b2n h) s
        let v := (r.1.getD (b2n h)) % 2
        let s := jnlInput 5 (jwho r.2 x.tid) [g.table * 256 + v] r.2
        ({ st := 0, det := 0, res := [(12, tvInt (w32 v))] }, s)

/-- PAT_CNT[p][k] (04 R158). -/
def patCnt (p k : Nat) : Nat := 0x1C01000 + 0x20 * p + 4 * k

/-- Bytes that wait in a pattern engine's queue (04 R146). -/
def patBusy (s : State) (p : Nat) : Nat := ((mget s.hif.patQ p []).map (fun x => x.2.2)).sum

/-- A scan of `n` bytes against a set in a pipe's engine (04 R145, R146): it is scanned, or not, for the reason counted. -/
def scanTakes (p i set n : Nat) (s : State) : Bool × State :=
  let c := rv s (0x1C08000 + 0x10 * set)
  if !bit c 31 then (false, cnt (patCnt p 2) s)
  else if bits c 28 24 != i then (false, cnt (patCnt p 3) (cnt (patCnt p 2) s))
  else if rf s (0x1C09000 + 4 * p) 17 0 < patBusy s p + n then (false, cnt (patCnt p 2) s)
  else (true, s)

/-- The verdict of a scan that was carried out, from what the engine found: the automaton is outside the manual, and its
answer comes with the command. MATCHES of a scan without a
match is 0, and its PATTERN, which the spec does not state, is what the command brings. -/
def verdictOf (v : Word) : Word := if bit v 30 then 0x40000000 ||| (v &&& 0x3FFF0FFF) else v &&& 0xFFF

/-- A verdict not scanned. -/
def verdictNone : Word := 0x80000000

/-- Count a scan that was carried out (04 R158): the bytes as a 64-bit number in two counters. -/
def scanCount (p n : Nat) (v : Word) (s : State) : State :=
  let s := cnt (patCnt p 0) s
  let s := if bit v 30 then cnt (patCnt p 1) s else s
  let b := satAdd 64 ((rv s (patCnt p 4)).toNat + (rv s (patCnt p 5)).toNat * 2 ^ 32) n
  rset (rset s (patCnt p 4) (w32 b)) (patCnt p 5) (w32 (b / 2 ^ 32))

/-- SCAN (R308). -/
def copScan (x : CopCx) (s : State) : CopRes × State :=
  if x.n 3 = 0 || 9216 < x.n 3 || 63 < x.n 4 then (copSt 6, s)
  else match x.buf s 1 (x.n 2) (x.n 3) with
    | .error e => (copSt e, s)
    | .ok _ =>
      if x.bad then copPoison x [5] s
      else
        let p := x.k % 4
        match scanTakes p x.i (x.n 4) (x.n 3) s with
        | (true, s) => ({ st := 0, det := 0, res := [(5, tvInt (verdictOf x.vd))] }, scanCount p (x.n 3) (verdictOf x.vd) s)
        | (false, s) => ({ st := 0, det := 0, res := [(5, tvInt verdictNone)] }, s)

/-- POLICE (R309). -/
def copPolice (x : CopCx) (s : State) : CopRes × State :=
  if x.n 1 / 2 ^ 18 != 0 || x.n 2 = 0 || 16383 < x.n 2 || 2 < x.n 3 || instF s x.i (·.polCount) ≤ x.n 1 % 65536 then (copSt 6, s)
  else
    let r := police (x.n 1 / 65536) (instF s x.i (·.polBase) + x.n 1 % 65536) (x.n 2) (x.n 3) s
    ({ st := 0, det := 0, res := [(4, tvInt (w32 r.1))] }, r.2)

/-- COUNT (R309). -/
def copCount (x : CopCx) (s : State) : CopRes × State :=
  match countAddr s x.i (x.n 1) with
  | none => (copSt 6, s)
  | some a => (copSt 0, countAdd a (x.n 2) s)

/-- CNTREAD, and CNTCLR, which zeroes the pair in the same operation (R309). -/
def copCntread (clr : Bool) (x : CopCx) (s : State) : CopRes × State :=
  match countAddr s x.i (x.n 1) with
  | none => (copSt 6, s)
  | some a =>
    if x.bad then copPoison x [4, 5, 6, 7] s
    else
      let p := dram64 s a
      let b := dram64 s (a + 8)
      let s := if clr then setDram64 (a + 8) 0 (setDram64 a 0 s) else s
      ({ st := 0, det := 0, res := intRes 4 [w32 p, w32 (p / 2 ^ 32), w32 b, w32 (b / 2 ^ 32)] }, s)

/-- An endpoint of MOV (R310). -/
inductive MovEnd where
  | core (c a : Nat)
  | scratch (a : Nat)
  | dram (a : Nat)
  | buf (b : BufRef) (o : Nat)

/-- Judge an endpoint held in registers `r` to `r` + 2, for `len` bytes (R310). -/
def movEnd (x : CopCx) (s : State) (r len : Nat) : Except Nat MovEnd :=
  let a := x.n (r + 1)
  match x.n r with
  | 0 => if x.n (r + 2) != 0 || 131072 < a + len then .error 6 else .ok (.core (x.tid / 8) a)
  | 1 =>
    if x.n (r + 2) != 0 || 2097152 < a + len then .error 6
    else if scratchOf s x.i a && scratchOf s x.i (a + len - 1) then .ok (.scratch a) else .error 5
  | 2 =>
    if x.n (r + 2) / 32 != 0 || instF s x.i (·.dramSize) * 1048576 < x.n (r + 2) * 2 ^ 32 + a + len then .error 6
    else .ok (.dram (instF s x.i (·.dramBase) * 1048576 + x.n (r + 2) * 2 ^ 32 + a))
  | 3 => match x.buf s (r + 2) a len with
    | .error e => .error e
    | .ok b => .ok (.buf b a)
  | _ => .error 6

/-- Bytes of an endpoint. -/
def movRead (s : State) (e : MovEnd) (n : Nat) : List Byte :=
  match e with
  | .core c a => memRdN s.cores.mem 0 (cmKey c a) n
  | .scratch a => memRdN s.lck.scratch 0 a n
  | .dram a => memRdN s.dram 0 a n
  | .buf b o => bufRead s b o n

/-- Every word written in core-local memory takes tag INT (R311) and, written whole, loses its mark (06 R195). -/
def movTags (plain : Bool) (c a n : Nat) (s : State) : State :=
  (List.range ((a + n + 3) / 4 - a / 4)).foldl (fun s j =>
    let w := (a / 4 + j) * 4
    let s := if a ≤ w && w + 4 ≤ a + n then cmSetPoison c w false s else s
    if plain then s else cmSetTag c w tINT s) s

/-- Write bytes at an endpoint. -/
def movWrite (plain : Bool) (e : MovEnd) (bs : List Byte) (s : State) : State :=
  match e with
  | .core c a =>
    movTags plain c a bs.length { s with cores := { s.cores with mem := memWrN s.cores.mem 0 (cmKey c a) bs } }
  | .scratch a => { s with lck := { s.lck with scratch := memWrN s.lck.scratch 0 a bs } }
  | .dram a => { s with dram := memWrN s.dram 0 a bs }
  | .buf b o => bufWrite b o bs s

/-- The bytes before the first core-local word MOV may not read or write (R311). -/
def movStop (s : State) (plain dst : Bool) (e : MovEnd) (n : Nat) : Nat :=
  match e with
  | .core c a =>
    if plain then n
    else match (List.range n).find? (fun j =>
        let t := cmTag s c (a + j)
        !(t == tINT || (dst && t == tVOID))) with
      | some j => j
      | none => n
  | _ => n

/-- A core-local source holds a word marked in error. -/
def movBad (s : State) (e : MovEnd) (n : Nat) : Bool :=
  match e with
  | .core c a => (List.range n).any (fun j => cmPoison s c (a + j))
  | _ => false

/-- The end of a MOV command that wrote `n` of `len` bytes: TAGBAD where a tag stopped it (R311). -/
def movDone (n len : Nat) : CopRes := { st := if n = len then 0 else 7, det := 0, res := [(9, tvInt (w32 n))] }

/-- COPY (R310, R311). -/
def copCopy (x : CopCx) (s : State) : CopRes × State :=
  let len := x.n 7
  if len = 0 || 65536 < len then (copSt 6, s)
  else match movEnd x s 1 len, movEnd x s 4 len with
    | .error e, _ => (copSt e, s)
    | _, .error e => (copSt e, s)
    | .ok a, .ok b =>
      let n := min (movStop s x.plain false a len) (movStop s x.plain true b len)
      if x.bad || movBad s a n then copPoison x [9] s
      else (movDone n len, movWrite x.plain b (movRead s a n) s)

/-- FILL (R310). -/
def copFill (x : CopCx) (s : State) : CopRes × State :=
  let len := x.n 7
  if len = 0 || 65536 < len then (copSt 6, s)
  else match movEnd x s 4 len with
    | .error e => (copSt e, s)
    | .ok b =>
      let n := movStop s x.plain true b len
      let pat := leBytes 4 (x.n 8)
      (movDone n len, movWrite x.plain b ((List.range n).map (fun j => (pat[j % 4]?).getD 0)) s)

/-- The end of an arm: the handle, or FULL (R312). -/
def armDone (r : Option Word × State) : CopRes × State :=
  match r with
  | (some h, s) => ({ st := 0, det := 0, res := [(10, tvInt h)] }, s)
  | (none, s) => (copSt 0x0B, s)

/-- ARM_CREATE (R312): the descriptor's form is judged now; whether the store has room is judged when it fires. -/
def copArmCreate (x : CopCx) (s : State) : CopRes × State :=
  let ws := [x.w 4, x.w 5, x.w 6, x.w 7]
  if 15 < x.n 1 then (copSt 6, s)
  else
    let st := itemJudge x.i 2 none ws s
    if 1 ≤ st && st ≤ 3 then ({ st := 0x0E, det := st, res := [] }, s)
    else armDone (dlArm x.i { list := x.n 1, inst := x.i, due := dueTime s (x.w 2), create := true, words := ws, slot := 0,
                              seq := 0, gen := 0, after := 0 } s)

/-- ARM_MSG (R312). -/
def copArmMsg (x : CopCx) (s : State) : CopRes × State :=
  if 15 < x.n 1 || 3 < x.n 5 then (copSt 6, s)
  else armDone (dlArm x.i { list := x.n 1, inst := x.i, due := dueTime s (x.w 2), create := false,
                            words := [x.w 4, x.w 6, x.w 7, x.w 8, x.w 9], slot := x.n 5, seq := 0, gen := 0, after := 0 } s)

/-- DISARM (R312). -/
def copDisarm (x : CopCx) (s : State) : CopRes × State :=
  let r := dlCancel x.i (x.w 11) s
  (copSt r.1, r.2)

/-- HMSG (R313, R314). -/
def copHmsg (x : CopCx) (s : State) : CopRes × State :=
  if x.n 1 / 512 != 0 || bits (x.w 1) 7 3 != 0 then (copSt 6, s)
  else
    let r := hostMsg x.i (x.n 1 % 8) (bit (x.w 1) 8) ((List.range 8).map (fun j => x.w (2 + j))) s
    (copSt r.1, r.2)

/-- Carry out a command of a unit. -/
def copRun (u code : Nat) (x : CopCx) (s : State) : CopRes × State :=
  match u, code with
  | 0, 1 => copKeyref x s
  | 0, 2 => copGcm false x s
  | 0, 3 => copGcm true x s
  | 0, 4 => copSha x s
  | 0, 5 => copLms x s
  | 1, 1 => copLookup x s
  | 1, 2 => copInsert x s
  | 1, 3 => copUpdate x s
  | 1, 4 => copDelete x s
  | 1, 5 => copHitread x s
  | 2, 1 => copScan x s
  | 3, 1 => copPolice x s
  | 3, 2 => copCount x s
  | 3, 3 => copCntread false x s
  | 3, 4 => copCntread true x s
  | 4, 1 => copCopy x s
  | 4, 2 => copFill x s
  | 5, 1 => copArmCreate x s
  | 5, 2 => copArmMsg x s
  | 5, 3 => copDisarm x s
  | _, _ => copHmsg x s

end Sys2Proof.Machine
end

