-- ==== Sys2Proof/Machine/TmCmd.lean ====
section
/-! DEFINITION. The commands of the traffic manager: enqueue, opportunity, shapers, commit, flush, spill and gates
(14_traffic_manager.md R373 to R392). -/

namespace Sys2Proof.Machine

/-- TM_ENQUEUE: the packet released first is judged and queued or dropped (R382). -/
def execTmEnqueue (s : State) : Result :=
  .next (match s.port.toTm with
    | [] => s
    | c :: t =>
      if !running s 24 0 then s
      else
        let s := { s with port := { s.port with toTm := t } }
        let p := (pktOf s c).getD Pkt.init
        match tmJudge p.queue p.inst p.cells p.colour s with
          | (some r, s) => pktDrop r c s
          | (none, s) => tmAppend p.queue c s)

/-- The peak shapers a queue of a port depends on (R377). -/
def qPeaks (s : State) (q : Nat) : List Nat :=
  match qPath s q, qRec s q with
  | some (u, v, n), some r => [credKey 1 q, credKey 3 u, credKey 5 v, credKey 6 n, credKey 7 r.inst]
  | _, _ => []

/-- The head packet of a queue, where it lies on-chip. -/
def qHead (s : State) (q : Nat) : Option Nat := match (tmQ s q).pkts with
  | x :: _ => if x.place = 0 then some x.cell else none
  | [] => none

/-- Class `c` of a port is paused (R377, 03 R97). -/
def portPaused (s : State) (n c : Nat) : Bool := decide (0 < mget s.port.paused (n * 8 + c) 0)

/-- The gate rule lets a queue's head packet start now (R392). -/
def gateLets (s : State) (n q : Nat) : Bool :=
  if n < 64 then match qHead s q with
    | some c => gateStays s n (qClass s q) (portRate s n) 4096 (ptpNs s) ((edLen s ((pktOf s c).getD Pkt.init) + 20) * 8)
    | none => false
  else true

/-- A queue of port `n` holds a sendable packet but for pauses and gates. -/
def qReady (s : State) (n q : Nat) : Bool :=
  (qHead s q).isSome && (qPeaks s q).all (peakElig s) && (!(64 ≤ n && n ≤ 96) || hostReady s n (qClass s q))

/-- A queue is sendable (R377). -/
def qSendable (s : State) (n q : Nat) : Bool := qReady s n q && !portPaused s n (qClass s q) && gateLets s n q

/-- A port node offers an opportunity (R374). -/
def portOffers (s : State) (n : Nat) : Bool :=
  running s 24 0 && (if n < 64 then portRate s n != 0 else if n ≤ 96 then true else decide (120 ≤ n) && decide (n ≤ 122))

/-- The first member after `p` in a rising list, wrapping. -/
def firstAfter (l : List Nat) (p : Nat) : Option Nat := match l.find? (fun m => decide (p < m)) with
  | some m => some m
  | none => l.head?

/-- The first member at or after `p` in a rising list, wrapping. -/
def firstAt (l : List Nat) (p : Nat) : Option Nat := match l.find? (fun m => decide (p ≤ m)) with
  | some m => some m
  | none => l.head?

/-- WEIGHT of a node (R397). -/
def nodeWeight (s : State) (key : Nat) : Nat :=
  let k := key % 65536
  match key / 65536 with
  | 0 => rf s (tmQCfg k) 21 12
  | 1 => rf s (0x3A40000 + 0x10 * k) 9 0
  | _ => rf s (0x3A80000 + 0x10 * k) 9 0

/-- DEF of a child and class. -/
def dfcOf (s : State) (key c : Nat) : Int := mget s.tm.dfc (key * 8 + c) 0

/-- Set DEF of a child and class. -/
def setDfc (key c : Nat) (v : Int) (s : State) : State :=
  { s with tm := { s.tm with dfc := mput s.tm.dfc (key * 8 + c) v 0 } }

/-- Set PTR of a node and class. -/
def setPtr (x c m : Nat) (s : State) : State := { s with tm := { s.tm with ptr := mput s.tm.ptr (x * 8 + c) (m % 65536) 0 } }

/-- The loop of choose (R376): deficits rise by 64 times the weight until one is above 0. -/
def wdrr (x c : Nat) (l : List Nat) : Nat → State → Nat × State
  | 0, s => (l.headD 0, s)
  | n + 1, s =>
    let base := (l.headD 0) / 65536 * 65536
    let m := (firstAt l (base + mget s.tm.ptr (x * 8 + c) 0)).getD 0
    let d := dfcOf s m c
    if 0 < d then (m, setPtr x c m s)
    else wdrr x c l n (setPtr x c ((firstAfter l m).getD 0) (setDfc m c (d + (nodeWeight s m * 64 : Nat)) s))

/-- choose(x, c, S) (R376): round-robin, or the loop of WDRR, which ends within the rounds that bring the lowest deficit
above 0. -/
def choose (x c : Nat) (l : List Nat) (s : State) : Nat × State :=
  let rr := match nodeRec s (x / 65536) (x % 65536) with
    | some r => x / 65536 != 3 && r.sched == 0
    | none => false
  if rr then
    let m := (firstAfter l ((l.headD 0) / 65536 * 65536 + mget s.tm.ptr (x * 8 + c) 0)).getD 0
    (m, setPtr x c m s)
  else
    let low := l.foldl (fun (a : Nat) m => max a (-(dfcOf s m c)).toNat) 0
    wdrr x c l (l.length * (low / 64 + 3)) s

/-- Walk from a node to a queue (R376): the path of children, each with whether it was chosen COMMITTED. -/
def tmWalk (c : Nat) (qs : List Nat) : Nat → Nat → List (Nat × Bool) → State → List (Nat × Bool) × State
  | 0, _, acc, s => (acc, s)
  | n + 1, x, acc, s =>
    if x < 65536 then (acc, s)
    else
      let e := (kids s x).filter (fun m => (leaves s 3 m).any (fun q => qs.contains q))
      let s := foldS e (fun m s => credRefresh (nodeCred false m) s) s
      let cm := e.filter (fun m => commElig s (nodeCred false m))
      if cm.isEmpty then
        let (m, s) := choose x c e s
        tmWalk c qs n m (acc ++ [(m, false)]) s
      else
        let m := (firstAfter cm ((cm.headD 0) / 65536 * 65536 + mget s.tm.rptr (x * 8 + c) 0)).getD 0
        tmWalk c qs n m (acc ++ [(m, true)])
          { s with tm := { s.tm with rptr := mput s.tm.rptr (x * 8 + c) (m % 65536) 0 } }

/-- WDRR schedules the children of a node: a port node's always. -/
def isWdrr (s : State) (x : Nat) : Bool := match nodeRec s (x / 65536) (x % 65536) with
  | some r => x / 65536 == 3 || r.sched == 1
  | none => true

/-- Charge the nodes of a path (R380): `x` is the parent of its first node. -/
def tmCharge (c l : Nat) : Nat → List (Nat × Bool) → State → State
  | _, [], s => s
  | x, (m, cm) :: t, s =>
    let s := credCharge l (nodeCred true m) s
    let s := if cm then credCharge l (nodeCred false m) s
      else if isWdrr s x then setDfc m c (dfcOf s m c - (l : Int)) s else s
    tmCharge c l m t s

/-- Dequeue the head packet of a path's queue and charge its path (R376, R380): it goes to the egress editor. -/
def tmDequeue (n c : Nat) (path : List (Nat × Bool)) (s : State) : State :=
  match path.getLast? with
  | none => s
  | some (q, _) => match qHead s q with
    | none => s
    | some cell =>
      let p := (pktOf s cell).getD Pkt.init
      let l : Int := (edLen s p : Int) + sgn 8 (rf s (0x3A88000 + 0x10 * n) 7 0)
      let l := (max 1 l).toNat
      let s := credCharge l (credKey 7 p.inst) (credCharge l (credKey 6 n) s)
      let s := tmCharge c l (nodeKey 3 n) path s
      let s := tmPop q s
      let s := cnt (tmPortCnt n 0) (cnt (tmInstCnt p.inst 1) s)
      let s := { s with port := { s.port with toEdit := s.port.toEdit ++
        [{ cell := cell, port := n, cls := c, bytes := [], ptp := none }] } }
      headNew q s

/-- Classes `c - 1` down to 0 at an opportunity of port `n` (R376): the state after a dequeue, or none with every tested
shaper refreshed. -/
def tmClasses (n : Nat) : Nat → State → Bool × State
  | 0, s => (false, s)
  | c + 1, s =>
    let qs := (portQs s n).filter (fun q => qClass s q == c && !(tmQ s q).pkts.isEmpty)
    let s := foldS ((qs.map (qPeaks s)).flatten) credRefresh s
    let ok := qs.filter (qSendable s n)
    if ok.isEmpty then tmClasses n c s
    else
      let (path, s) := tmWalk c ok 4 (nodeKey 3 n) [] s
      (true, tmDequeue n c path s)

/-- PORT_OPPORTUNITY: a port's consumer can take a frame (R374, R376). An unused one is counted, and as lost to a gate or
to a pause where only that held a packet back (R392). -/
def execPortOpportunity (n : Fin 128) (s : State) : Result :=
  .next (if !portOffers s n.val then s
    else match tmClasses n.val 8 s with
      | (true, s) => s
      | (false, s) =>
        let qs := (portQs s n.val).filter (qReady s n.val)
        let s := cnt (tmPortCnt n.val 1) s
        let s := if qs.any (fun q => !portPaused s n.val (qClass s q) && !gateLets s n.val q) then cnt (tmPortCnt n.val 2) s else s
        if qs.any (fun q => portPaused s n.val (qClass s q)) then cnt (tmPortCnt n.val 3) s else s)

/-- SHAPER_ELIGIBLE: at a calendar-slot boundary at or after its due time a shaper leaves the calendar (R379). -/
def execShaperEligible (kind : Fin 8) (k : Fin 65536) (s : State) : Result :=
  let key := credKey kind.val k.val
  let c := credOf s key
  .next (match c.due with
    | some d => if d ≤ s.clk.fab then credRefresh key (setCred key { c with due := none } s) else s
    | none => s)

/-- Every shaper: those of the hierarchy's nodes, the ports and the instances. -/
def allCreds (s : State) : List Nat :=
  (s.img.qhie.map (fun r => [nodeCred false (nodeKey r.level r.node), nodeCred true (nodeKey r.level r.node)])).flatten ++
  (List.range 123).map (credKey 6) ++ (List.range 32).map (credKey 7)

/-- Commit the shadow values of the registers from `a` to `b` (00 R16). -/
def commitRange (a b : Nat) (s : State) : State :=
  foldS (mkeys (s.regs.shadow.filter (fun e => decide (a ≤ e.1) && decide (e.1 < b)))) hCommit s

/-- The TM fields of a node return to their reset values (02 R86). -/
def nodeRegs (r : QhieRec) (s : State) : State :=
  regsReset (match r.level with
    | 0 => 0x3B00000 + 0x10 * r.node
    | 1 => 0x3A40000 + 0x10 * r.node
    | _ => 0x3A80000 + 0x10 * r.node) 0x10 s

/-- A node added or re-parented starts with its fields reset and its pointers and deficits at 0; an added one with CRED 0 and LAST
now (R376, R379, 02 R86). -/
def nodeStart (added : Bool) (r : QhieRec) (s : State) : State :=
  let s := nodeRegs r s
  let k := nodeKey r.level r.node
  let s := if added then
      let z : Cred := { cred := 0, last := s.clk.fab, due := none }
      setCred (nodeCred false k) z (setCred (nodeCred true k) z s)
    else s
  let mine (x : Nat) : Bool := x / 8 == k
  let ks := kids s k
  { s with tm := { s.tm with
      rptr := s.tm.rptr.filter (fun e => !mine e.1),
      ptr := s.tm.ptr.filter (fun e => !mine e.1),
      dfc := s.tm.dfc.filter (fun e => !mine e.1 && !ks.contains (e.1 / 8)) } }

/-- A new queue hierarchy takes effect (R381). -/
def qhieCommit (l : List QhieRec) (s : State) : State :=
  let old := s.img.qhie
  let s := { s with img := { s.img with qhie := l }, tm := { s.tm with next := none } }
  foldS l (fun r s => match old.find? (fun o => o.level == r.level && o.node == r.node) with
    | none => nodeStart true r s
    | some o => if o.parent = r.parent then s else nodeStart false r s) s

/-- OVER_SHARE of a queue or instance follows a committed quota (R385). -/
def overSet (k quota occ : Nat) (s : State) : State :=
  if quota < occ then { s with tm := { s.tm with overShare := mput s.tm.overShare k true false } }
  else if occ < quota then { s with tm := { s.tm with overShare := mput s.tm.overShare k false false } } else s

/-- What a commit of the TM does at a calendar-slot boundary (R381): shapers are refreshed under their old rates; each is
then clamped to its new burst, one whose rate was 0 starts with CRED 0, and a CRED below 0 is entered on the calendar under
the new rate. -/
def tmCommit (s : State) : State :=
  let s := foldS (allCreds s) credRefresh s
  let olds := (allCreds s).map (fun k => (k, credRate s k))
  let s := commitRange 0x3A00000 0x3C00000 s
  let s := match s.tm.next with
    | some l => qhieCommit l s
    | none => s
  let s := foldS olds (fun (k, r) s =>
    let c := credOf s k
    let c := if r = 0 && credRate s k != 0 then { c with cred := 0, last := s.clk.fab } else c
    credEnter k (setCred k { c with cred := min c.cred (credBurst s k * 64 * 65536 : Nat) } s)) s
  let s := foldS ((mkeys s.tm.qs)) (fun q s => overSet q (rf s (tmQCfg q + 4) 19 0) (occQ s q) s) s
  foldS (List.range 32) (fun i s => overSet (65536 + i) (rf s (0x3A88800 + 0x20 * i) 19 0) (occI s i) s) s

/-- TM_COMMIT: at a calendar-slot boundary (R381). -/
def execTmCommit (s : State) : Result := .next (tmCommit s)

/-- TM_PORTCMD[n]. -/
def tmPortCmd (n : Nat) : Nat := 0x3A04200 + 4 * n

/-- TM_FLUSH: every packet queued under a port is dropped (R384). -/
def execTmFlush (r : Req) (n : Fin 128) (s : State) : Result :=
  .next (asked r (tmPortCmd n.val) (fun s => foldS (portQs s n.val) (tmFlushQ 0x55) s) s)

/-- The place of a packet in its queue becomes `k`. -/
def setPlace (q cell k : Nat) (s : State) : State :=
  let x := tmQ s q
  setTmQ q { x with pkts := x.pkts.map (fun p => if p.cell = cell then { p with place := k } else p) } s

/-- SPILL_WRITE_DONE: the DRAM write of the first packet of a queue being written completes, and its on-chip cells are
freed (R386). -/
def execSpillWriteDone (q : Fin 65536) (s : State) : Result :=
  .next (match (tmQ s q.val).pkts.find? (fun p => p.place == 1) with
    | none => s
    | some x =>
      let p := (pktOf s x.cell).getD Pkt.init
      let s := uncharge p s
      let s := setPkt x.cell { p with guar := 0, shared := 0, head := 0, saved := [], copy := true } s
      xoffSweep (setPlace q.val x.cell 2 s))

/-- SPILL_READBACK: while the tail is not empty and the head holds fewer than min(ONCHIP, 512) cells, the next packet is
read back, into cells of the shared pool (R387). -/
def execSpillReadback (q : Fin 65536) (s : State) : Result :=
  let x := tmQ s q.val
  let head := x.pkts.takeWhile (fun p => p.place == 0 || p.place == 3)
  let n := (head.map (fun p => pktCells s p.cell)).sum
  .next (match x.pkts.drop head.length with
    | [] => s
    | y :: _ =>
      let p := (pktOf s y.cell).getD Pkt.init
      if y.place != 2 || decide (min (rf s (tmQCfg q.val + 8) 17 0) 512 ≤ n) || decide (sharedFree s < (p.cells : Int)) then s
      else
        let s := setPkt y.cell { p with shared := p.cells } s
        setPlace q.val y.cell 3 { s with port := { s.port with sharedUsed := s.port.sharedUsed + p.cells } })

/-- SPILL_READ_DONE: a readback completes and its packet is on-chip (R387). -/
def execSpillReadDone (q : Fin 65536) (s : State) : Result :=
  .next (match (tmQ s q.val).pkts.find? (fun p => p.place == 3) with
    | none => s
    | some x => setPlace q.val x.cell 0 s)

/-- A write to the TM block is rejected and sets CFG_BUSY (R390). -/
def tmBusy (s : State) : State := blkMod s 24 0 (fun k => { k with cfgBusy := true })

/-- TM_GATESTS[n] (R397). -/
def gateSts (n : Nat) : Nat := 0x3A03000 + 4 * n

/-- BASE of the admin list of a port, in nanoseconds of PTP time (R390). -/
def gateBase (s : State) (n : Nat) : Nat :=
  let a := 0x3A8A000 + 0x20 * n
  (rf s (a + 8) 15 0 * 2 ^ 32 + (rv s (a + 4)).toNat) * 1000000000 + rf s a 29 0

/-- GATE_COMMIT (R390, R391). -/
def execGateCommit (r : Req) (n : Fin 64) (s : State) : Result :=
  .next (asked r (tmPortCmd n.val) (fun s =>
    let g := gateOf s n.val
    if g.pend.isSome then tmBusy s
    else
      let b := gateBase s n.val
      let cyc := rf s (0x3A8A00C + 0x20 * n.val) 29 0
      let at_ := ptpNs s + 2000
      if at_ ≤ b then setGate n.val { g with pend := some b } s
      else setGate n.val { g with pend := some (b + cdiv (at_ - b) cyc * cyc) } (rsetF s (gateSts n.val) 30 30 1)) s)

/-- GATE_CANCEL (R390). -/
def execGateCancel (r : Req) (n : Fin 64) (s : State) : Result :=
  .next (asked r (tmPortCmd n.val) (fun s => setGate n.val { gateOf s n.val with pend := none } s) s)

/-- GATE_OFF (R390). -/
def execGateOff (r : Req) (n : Fin 64) (s : State) : Result :=
  .next (asked r (tmPortCmd n.val) (fun s => setGate n.val { gateOf s n.val with pend := none, on := false, open_ := 255 } s) s)

/-- The gate states of a port as its list has them now. -/
def gateNow (n : Nat) (s : State) : State := setGate n { gateOf s n with open_ := (gateAt s n (ptpNs s)).1 } s

/-- GATE_TAKEOVER: at T the committed list replaces the running one (R391). -/
def execGateTakeover (n : Fin 64) (s : State) : Result :=
  let g := gateOf s n.val
  .next (match g.pend with
    | none => s
    | some t =>
      if ptpNs s < t then s
      else
        let a := 0x3A8A000 + 0x20 * n.val
        let s := setGate n.val { g with
          bank := 1 - g.bank, on := true, t0 := t, cyc := rf s (a + 12) 29 0, len := rf s (a + 16) 10 0, pend := none } s
        gateNow n.val (cnt (tmPortCnt n.val 5) s))

/-- GATE_CHANGE: the gate states of the entry in force at this time take effect (R389). -/
def execGateChange (n : Fin 64) (s : State) : Result := .next (if (gateOf s n.val).on then gateNow n.val s else s)

/-- The port and entry a requester selected (R397). -/
def gclSel (s : State) (r : Req) : Nat × Nat :=
  let w := rv s (reqKey r 0x3A04100)
  (bits w 21 16, bits w 9 0)

/-- A virtual function names a port of its own instance; the physical function and the steward name any (R397). -/
def gclMay (s : State) (r : Req) : Bool := reqPriv r || (reqInst s r).isSome && portInst s (gclSel s r).1 == reqInst s r

/-- GCL_WRITE: an entry of the admin list (R390). -/
def execGclWrite (r : Req) (s : State) : Result :=
  .next (asked r 0x3A0410C (fun s =>
    let (n, e) := gclSel s r
    let g := gateOf s n
    if !gclMay s r then accErr r 4 0x3A0410C s
    else if g.pend.isSome then tmBusy s
    else
      let x := (rf s (reqKey r 0x3A04104) 7 0, rf s (reqKey r 0x3A04108) 29 0)
      { s with tm := { s.tm with gcl := mins s.tm.gcl ((n * 2 + (1 - g.bank)) * 1024 + e) x } }) s)

/-- GCL_READ: an entry of the admin or running list comes to the requester's words (R390). -/
def execGclRead (r : Req) (running : Bool) (s : State) : Result :=
  .next (asked r 0x3A0410C (fun s =>
    let (n, e) := gclSel s r
    let g := gateOf s n
    if !gclMay s r then accErr r 4 0x3A0410C s
    else
      let x := gclAt s n (if running then g.bank else 1 - g.bank) e
      rset (rset s (reqKey r 0x3A04104) (w32 x.1)) (reqKey r 0x3A04108) (w32 x.2)) s)

end Sys2Proof.Machine
end

