-- ==== Sys2Proof/Machine/Parse.lean ====
section
/-! DEFINITION. The parse-graph walk and the parse result (04_parse_classify.md R125 to R134), and the epochs of the rule
sets (R138 to R141). -/

namespace Sys2Proof.Machine

/-- The flags of R131: their numbers. -/
def fDEPTH : Nat := 0
def fLONG : Nat := 1
def fSHORT : Nat := 2
def fBAD : Nat := 3
def fEARLY : Nat := 4
def fIPSUM : Nat := 5
def fL4SUM : Nat := 6
def fOUTER : Nat := 7

/-- The walk so far. -/
structure Walk where
  hdrs : List Hdr
  /-- FLAGS. -/
  flags : Nat
  /-- Where the next header begins. -/
  off : Nat
  /-- The end of the innermost enclosing IPv4, IPv6 or UDP extent, or FRAME_LEN (R132). -/
  lim : Nat
  /-- No such extent encloses: trailing bytes may be Ethernet padding. -/
  framed : Bool
  /-- DATA_END, once an IP header has set it. -/
  dataEnd : Option Nat
  /-- KIND and offset of the innermost IP header accepted. -/
  ip : Option (Nat × Nat)
  /-- Inside a fragment (R134). -/
  frag : Bool

/-- What the check of one header finds: its flags that let the walk continue, the end of the extent it states, whether a
fragment begins with it and whether that fragment is a non-first one. -/
structure HdrOk where
  more : Nat
  ext : Option Nat
  frag : Bool
  nonfirst : Bool

/-- A header that states nothing. -/
def HdrOk.plain : HdrOk := { more := 0, ext := none, frag := false, nonfirst := false }

/-- The pseudo-header of a UDP or TCP checksum (RFC 768, RFC 793, RFC 8200; PRESUMED). -/
def pseudoHdr (fr : List Byte) (ip : Nat × Nat) (proto n : Nat) : List Byte :=
  if ip.1 = 4 then sliceB fr (ip.2 + 12) 8 ++ beBytes 2 proto ++ beBytes 2 n
  else sliceB fr (ip.2 + 8) 32 ++ beBytes 4 n ++ beBytes 4 proto

/-- A UDP or TCP checksum is wrong over `n` bytes from `o` (R133); with no IP header it is not judged (R134). -/
def l4Wrong (fr : List Byte) (ip : Option (Nat × Nat)) (o ck proto n : Nat) : Bool :=
  match ip with
  | none => false
  | some h => be16 fr (o + ck) != 0 && ocSum (pseudoHdr fr h proto n ++ sliceB fr o n) != 65535

/-- The C, K and S bits of a GRE header: the header's length (R127). -/
def greLen (w : Nat) : Nat := 4 + 4 * (nbits w 15 15 + nbits w 13 13 + nbits w 12 12)

/-- The KIND checks of a header of length `hl` at the walk's offset (R133): the flag that stops the walk, or what the
header states. Of "reserved bits [12:3]" of GRE bit 12 is S, which R127 uses: the bits judged are [11:3] (DEDUCED). -/
def kindCheck (fr : List Byte) (w : Walk) (kind hl : Nat) : Except Nat HdrOk :=
  let n := fr.length
  let o := w.off
  let rem := w.lim - o
  let pad := w.framed && decide (n ≤ 60)
  let shortIf (tot : Nat) : Nat := if tot < rem && !pad then 2 ^ fSHORT else 0
  match kind with
  | 4 =>
    let b0 := ((fr[o]?).getD 0).toNat
    let tot := be16 fr (o + 2)
    let fw := be16 fr (o + 6)
    if b0 / 16 != 4 || b0 % 16 < 5 then .error fBAD
    else if rem < hl then .error fLONG
    else if tot < hl then .error fBAD
    else if rem < tot then .error fLONG
    else .ok { more := shortIf tot + (if ocSum (sliceB fr o hl) = 65535 then 0 else 2 ^ fIPSUM), ext := some (o + tot),
               frag := nbits fw 13 13 = 1 || fw % 8192 != 0, nonfirst := fw % 8192 != 0 }
  | 5 =>
    let tot := 40 + be16 fr (o + 4)
    if ((fr[o]?).getD 0).toNat / 16 != 6 then .error fBAD
    else if rem < 40 || rem < tot then .error fLONG
    else .ok { HdrOk.plain with more := shortIf tot, ext := some (o + tot) }
  | 6 => if rem < hl then .error fLONG else .ok HdrOk.plain
  | 7 => .ok { HdrOk.plain with frag := true, nonfirst := be16 fr (o + 2) / 8 != 0 }
  | 8 =>
    if w.frag then .ok HdrOk.plain
    else
      let rem := if w.ip.isNone then n - o else rem
      let ul := be16 fr (o + 4)
      if ul < 8 then .error fBAD
      else if rem < ul then .error fLONG
      else .ok { HdrOk.plain with
        more := (if ul < rem && !pad then 2 ^ fSHORT else 0) + (if l4Wrong fr w.ip o 6 17 ul then 2 ^ fL4SUM else 0)
        ext := some (o + ul) }
  | 9 =>
    let rem := if w.ip.isNone then n - o else rem
    if hl < 20 then .error fBAD
    else if w.frag then .ok HdrOk.plain
    else if rem < hl then .error fLONG
    else .ok { HdrOk.plain with more := if l4Wrong fr w.ip o 16 6 rem then 2 ^ fL4SUM else 0 }
  | 10 =>
    if be16 fr o % 4096 != 0 then .error fBAD
    else if rem < hl then .error fLONG
    else .ok HdrOk.plain
  | _ => .ok HdrOk.plain

/-- The length of a header of a type at offset `o` (R125, R127), or the flag of a header whose length field is not there. -/
def hdrLen (fr : List Byte) (win : Nat) (t : ParseType) (o : Nat) : Except Nat Nat :=
  let need (a : Nat) (r : Nat) : Except Nat Nat :=
    if fr.length < a + 2 then .error fLONG else if win < a + 2 then .error fDEPTH else .ok r
  if t.kind = 10 then need o (greLen (be16 fr o))
  else if t.lenWidth = 0 then .ok t.fixLen
  else need (o + t.lenOff) (t.fixLen + be16 fr (o + t.lenOff) / 2 ^ t.lenLsb % 2 ^ t.lenWidth * 2 ^ t.lenShift)

/-- Judge the next header: `over`, an edge matched when the header limit was already reached (R129). LEN_LONG goes before
PARSE_DEPTH. -/
def hdrJudge (fr : List Byte) (win : Nat) (ovr : Bool) (t : ParseType) (w : Walk) : Except Nat (Nat × HdrOk) :=
  match hdrLen fr win t w.off with
  | .error f => .error f
  | .ok hl =>
    let e := w.off + hl
    let kc := kindCheck fr w t.kind hl
    if fr.length < e then .error fLONG
    else match kc with
      | .error f => .error (if f = fLONG then fLONG else if ovr || decide (win < e) then fDEPTH else f)
      | .ok k =>
        if ovr || decide (win < e) then .error fDEPTH
        else if (t.selWidth != 0 && decide (hl < t.selOff + 2)) || (t.lenWidth != 0 && decide (hl < t.lenOff + 2)) then
          .error fBAD
        else .ok (hl, k)

/-- The walk (R129): the type of the next header, and whether it would exceed the limit of `top` headers. It ends behind
the IP or fragment header of a non-first fragment: what follows there is no header (R136, R137, DEDUCED). -/
def walk (g : Graph) (fr : List Byte) (win top : Nat) : Nat → Nat → Bool → Walk → Walk
  | 0, _, _, w => w
  | fuel + 1, ty, ovr, w =>
    match g.types.find? (fun t => t.id == ty) with
    | none => w
    | some t =>
      match hdrJudge fr win ovr t w with
      | .error f => { w with flags := w.flags ||| 2 ^ f }
      | .ok (hl, k) =>
        let isIp := t.kind = 4 || t.kind = 5
        let w' : Walk :=
          { hdrs := w.hdrs ++ [{ ty := ty, len := hl, off := w.off }], flags := w.flags ||| k.more, off := w.off + hl,
            lim := k.ext.getD w.lim, framed := w.framed && k.ext.isNone,
            dataEnd := if isIp && w.dataEnd.isNone then k.ext else w.dataEnd,
            ip := if isIp then some (t.kind, w.off) else w.ip, frag := w.frag || k.frag }
        if k.nonfirst then w'
        else if t.kind = 3 && w'.hdrs.length = top && ((fr[w.off + 2]?).getD 0).toNat % 2 = 0 then
          { w' with flags := w'.flags ||| 2 ^ fDEPTH }
        else
          let sel := if t.selWidth = 0 then 0 else be16 fr (w.off + t.selOff) / 2 ^ t.selLsb % 2 ^ t.selWidth
          match g.edges.find? (fun e => e.src == ty && Nat.land sel e.mask == e.value) with
          | none => w'
          | some e => walk g fr win top fuel e.dst (decide (w'.hdrs.length = top)) w'

/-- A port whose PORT record sets LONG (R129). -/
def portLong (s : State) (n : Nat) : Bool := match lportRec s n with
  | some r => r.long
  | none => false

/-- A pipe has a LONG port: its fragment-follow table is disabled (R137). -/
def pipeLong (s : State) (p : Nat) : Bool := s.img.port.any (fun r => r.long && r.mac / 16 == p)

/-- Whether a header is the one of a non-first fragment: an IPv4 header with a fragment offset, or a fragment header with
one (R136). -/
def nonFirst (g : Graph) (win : List Byte) (h : Hdr) : Bool :=
  (kindOf g h.ty = 4 && be16 win (h.off + 6) % 8192 != 0) || (kindOf g h.ty = 7 && be16 win (h.off + 2) / 8 != 0)

/-- The parse result of a frame on port `inPort` (R129 to R134). -/
def parseFrame (s : State) (g : Graph) (p : Pkt) (epoch : Nat) : ParseRes :=
  let long := portLong s p.inPort
  let n := p.win.length
  let w := walk g p.win (if long then 512 else 256) (if long then 24 else 16) 26 0 false
    { hdrs := [], flags := 0, off := 0, lim := n, framed := true, dataEnd := none, ip := none, frag := false }
  let outer := pipeLong s p.pipe && (match w.hdrs.getLast? with
    | some h => nonFirst g p.win h
    | none => false)
  { hdrs := w.hdrs, pass := p.pass, flags := if outer then w.flags ||| 2 ^ fOUTER else w.flags, epoch := epoch, frameLen := n,
    endOff := w.off, dataEnd := w.dataEnd.getD 0, inPort := p.inPort }

/-- The words of a parse result (R130). -/
def parseWords (r : ParseRes) : List Word :=
  [w32 (r.hdrs.length * 2 ^ 27 + r.pass % 8 * 2 ^ 24 + r.flags % 256 * 2 ^ 16 + r.epoch % 65536),
   w32 (r.frameLen % 16384 * 2 ^ 16 + r.endOff % 16384), w32 (r.dataEnd % 16384 * 2 ^ 16 + r.inPort % 128), 0] ++
  r.hdrs.map (fun h => w32 (h.ty % 256 * 2 ^ 24 + h.len % 512 * 2 ^ 12 + h.off % 512))

/-- PRS_CNT[p][k] (R156). -/
def prsCnt (p k : Nat) : Nat := 0x1401D00 + 0x100000 * p + 4 * k

/-- Count the flags raised (R131). -/
def countFlags (i flags : Nat) (s : State) : State :=
  foldS (List.range 8) (fun f s => if flags.testBit f then cnt (0x1401800 + 0x20 * i + 4 * f) s else s) s

/-- The CURRENT slot of an instance (R138). -/
def epochCur (s : State) (i : Nat) : Option Nat := (List.range 4).find? (fun k => rf s (epochSts i k) 31 30 == 1)

/-- The packet's slot, stamped at its first parse (R139); none where its instance has no CURRENT epoch, or where its epoch
is RETIRED, with the reason (R141). -/
def epochStamp (p : Pkt) (s : State) : Except Nat (Nat × State) :=
  if p.slot < 4 then
    if rf s (epochSts p.inst p.slot) 31 30 = 3 then .error 0x27 else .ok (p.slot, s)
  else match epochCur s p.inst with
    | some k => .ok (k, epochInc p.inst k s)
    | none => .error 0x43

/-- PARSE_PASS: the first packet waiting for a pipe's parser is parsed (R129 to R139). A packet of an instance that has no
CURRENT epoch is dropped as one of an instance in reset (log). -/
def execParsePass (pipe : Fin 4) (s : State) : Result :=
  let p := pipe.val
  .next (match mget s.port.toParse p [] with
    | [] => s
    | c :: t =>
      if !running s 13 p then s
      else
        let s := { s with port := { s.port with toParse := mput s.port.toParse p t [] } }
        match pktOf s c with
        | none => s
        | some k => match epochStamp k s with
          | .error r => pktDrop r c s
          | .ok (slot, s) =>
            let r := parseFrame s (graphOf s k.inst slot) k (rf s (epochSts k.inst slot) 15 0)
            let s := countFlags k.inst r.flags (cnt (prsCnt p 0) (setPkt c { k with slot := slot, parse := r } s))
            let s := if r.flags.testBit fOUTER then cnt (prsCnt p 4) s else s
            { s with port := { s.port with toClass := mput s.port.toClass p (mget s.port.toClass p [] ++ [c]) [] } })

/-- The ranges of the rule-set registers of an instance (R138): KEYPROF and KEYEXT, INSTCFG, INSTCFG2, PCPMAP, DSCPMAP,
ACTMAP. -/
def ruleRanges (i : Nat) : List (Nat × Nat) :=
  [(0x1808000 + 0x100 * i, 0x1808100 + 0x100 * i), (0x180A100 + 4 * i, 0x180A104 + 4 * i),
   (0x180A180 + 4 * i, 0x180A184 + 4 * i), (0x180A200 + 4 * i, 0x180A204 + 4 * i),
   (0x180A300 + 0x10 * i, 0x180A310 + 0x10 * i), (0x1810000 + 0x1000 * i, 0x1811000 + 0x1000 * i)]

/-- The words of an instance's rule set as it stands. -/
def ruleWords (s : State) (i : Nat) : List (Nat × Word) :=
  s.regs.vals.filter (fun e => (ruleRanges i).any (fun r => decide (r.1 ≤ e.1) && decide (e.1 < r.2)))

/-- A register of the rule set a packet's epoch binds (R138). -/
def er (s : State) (i slot off : Nat) : Word :=
  match mfind s.rules.epochs (i * 4 + slot) with
  | some e => (mfind e.rules off).getD (resetWordAt off)
  | none => rv s off

/-- PRS_EPOCHRES[i] (R156). -/
def epochRes (i : Nat) : Nat := 0x1401004 + 0x10 * i

/-- The old CURRENT slot becomes DRAINING, and FREE at once where its count is 0 (R139, R140). -/
def epochDrain (i : Nat) (s : State) : State :=
  match epochCur s i with
  | none => s
  | some k =>
    let s := rsetF s (epochSts i k) 31 30 2
    if rf s (epochSts i k) 29 16 = 0 then epochFree i k s else s

/-- A slot an epoch can take. -/
def epochSlot (s : State) (i : Nat) : Option Nat := (List.range 4).find? (fun k => rf s (epochSts i k) 31 30 == 0)

/-- Commit the shadow rule set of an instance as a new epoch in a FREE slot (R140). -/
def epochCommit (i k : Nat) (s : State) : State :=
  let s := epochDrain i s
  let s := foldS (ruleRanges i) (fun (r : Nat × Nat) s => commitRange r.1 r.2 s) s
  let e := rf s (0x1401008 + 0x10 * i) 15 0 % 65535 + 1
  let s := rset s (0x1401008 + 0x10 * i) (w32 e)
  let s := rset s (epochSts i k) (w32 (2 ^ 30 + e))
  let s := { s with rules := { s.rules with epochs := mins s.rules.epochs (i * 4 + k) ⟨s.rules.graphNow, ruleWords s i⟩ } }
  let s := jnlInput 9 (whoNone i) [k * 2 ^ 18 + 2 ^ 16 + e] s
  rsetF s (epochRes i) 30 30 0

/-- COMMIT of PRS_EPOCHCMD[i] (R140). While a load keeps the slots, it waits. -/
def epochAsk (i : Nat) (s : State) : State :=
  if rb s (epochRes i) 30 then s
  else if s.load.kept then rsetF s (epochRes i) 30 30 1
  else match epochSlot s i with
    | some k => epochCommit i k s
    | none => rsetF s (epochRes i) 30 30 1

/-- EPOCH_COMMIT: COMMIT written to PRS_EPOCHCMD[i] (R140). An instance the image does not hold has no epochs. -/
def execEpochCommit (r : Req) (i : Fin 32) (s : State) : Result :=
  .next (asked r (0x1401000 + 0x10 * i.val) (fun s => if (instRec s i.val).isSome then epochAsk i.val s else s) s)

/-- EPOCH_COMMIT_PENDING: a pending commit takes place once a slot is FREE and no load keeps the slots (R140). -/
def execEpochCommitPending (i : Fin 32) (s : State) : Result :=
  .next (if rb s (epochRes i.val) 30 && !s.load.kept then
      match epochSlot s i.val with
      | some k => epochCommit i.val k s
      | none => s
    else s)

/-- EPOCH_RETIRE: RETIRE written to PRS_EPOCHCMD[i] with an epoch (R141). -/
def execEpochRetire (r : Req) (i : Fin 32) (e : Fin 65536) (s : State) : Result :=
  let i := i.val
  .next (askedW r (0x1401000 + 0x10 * i) e.val (fun s =>
    match (List.range 4).find? (fun k => rf s (epochSts i k) 31 30 != 0 && rf s (epochSts i k) 15 0 == e.val) with
    | none => rsetF s (epochRes i) 3 0 1
    | some k =>
      if rf s (epochSts i k) 31 30 = 1 then rsetF s (epochRes i) 3 0 2
      else
        let s := rsetF s (epochRes i) 3 0 0
        if rf s (epochSts i k) 31 30 = 2 then
          let s := fragForget i k (rsetF s (epochSts i k) 31 30 3)
          let s := jnlInput 9 (whoNone i) [k * 2 ^ 18 + 2 ^ 17 + e.val] s
          if rf s (epochSts i k) 29 16 = 0 then epochFree i k s else s
        else s) s)

end Sys2Proof.Machine
end

