-- ==== Sys2Proof/Machine/ClassCmd.lean ====
section
/-! DEFINITION. Classification: lookups, the stream filter, policing, action lists and what they lead to
(04_parse_classify.md R131, R135 to R153, 14_traffic_manager.md R393, R394, 18_resilience_replay.md R493, R495). -/

namespace Sys2Proof.Machine

/-- A register of a packet's rule set. -/
def pr (s : State) (p : Pkt) (off : Nat) : Word := er s p.inst p.slot off

/-- The bytes of one extract of a key profile, and whether it finds its header with all its bytes (R142). -/
def extractOf (p : Pkt) (x : Word) : Bool × List Byte :=
  let n := bits x 4 0
  let hs := p.parse.hdrs.filter (fun h => h.ty == bits x 31 24)
  let h := if bits x 23 22 = 3 then hs.getLast? else hs[bits x 23 22]?
  match h with
  | some h =>
    let o := h.off + bits x 15 8
    if n != 0 && decide (o + n ≤ p.win.length) then (true, sliceB p.win o n) else (false, List.replicate n 0)
  | none => (false, List.replicate n 0)

/-- The key a profile builds for a table (R142, R349): a learning table's key has no PRESENT byte, and its bits [15:12] of
FID are ignored. -/
def profKey (s : State) (p : Pkt) (k : Nat) (g : TgeoRec) : Nat :=
  let es := (List.range 8).map (fun e => extractOf p (pr s p (0x1808004 + 0x100 * p.inst + 0x40 * k + 4 * e)))
  let present := ((List.range 8).map (fun e => if ((es[e]?).getD (false, [])).1 then 2 ^ e else 0)).sum
  let body := (es.map (·.2)).flatten
  if g.kind = 2 then beVal (sliceB body 0 8) % 2 ^ 60 else beVal (sliceB (by8 present :: body) 0 (keyBytes g))

/-- The lookup of key profile `k` (R142, R144): its result word; a profile that is not VALID makes none. -/
def profRun (p : Pkt) (k : Nat) (s : State) : Nat × State :=
  let w := pr s p (0x1808000 + 0x100 * p.inst + 0x40 * k)
  if !bit w 31 then (missWord, s)
  else
    let s := cnt (0x1803000 + 0x100000 * p.pipe) s
    match tgeoRec s (bits w 7 0) with
    | none => (missWord, s)
    | some g =>
      if g.inst != p.inst then (missWord, s)
      else
        let src := rb s (0x3808000 + 4 * p.inst) k
        let (r, s) := profLookup g p.pipe (profKey s p k g) p.inPort src s
        (r.getD missWord, s)

/-- The lookups of all profiles in ascending order; no words where no profile is VALID. -/
def profAll (p : Pkt) (s : State) : List Nat × State :=
  let (l, s) := (List.range 4).foldl (fun (a : List Nat × State) k =>
    let (w, s) := profRun p k a.2
    (a.1 ++ [w], s)) ([], s)
  if (List.range 4).any (fun k => bit (pr s p (0x1808000 + 0x100 * p.inst + 0x40 * k)) 31) then (l, s) else ([], s)

/-- The policer the lookups select (R147): the policer's number, if any. -/
def polSelect (p : Pkt) (lkp : List Nat) (s : State) : Option Nat × State :=
  match lkp.find? (fun w => nbits w 47 32 != 0xFFFF) with
  | none => (none, s)
  | some w =>
    if nbits w 47 32 < instF s p.inst (·.polCount) then (some (instF s p.inst (·.polBase) + nbits w 47 32), s)
    else (none, cnt (0x1803004 + 0x100000 * p.pipe) s)

/-- A free choice among the values of a list; a free colour where it is empty. -/
def pickOf (l : List Nat) (s : State) : Nat × State :=
  match l with
  | [] => drawPick 3 s
  | a :: _ => let (k, s) := drawPick l.length s
    ((l[k]?).getD a, s)

/-- The incoming colour of a packet (R147). The spec does not say which of several tags or IP headers is read, nor the
colour of a packet without one: both are free. -/
def colourIn (p : Pkt) (x : Nat) (s : State) : Nat × State :=
  let g := graphOf s p.inst p.slot
  let hs := p.parse.hdrs
  if rb s (polCfg p.pipe x) 28 then
    pickOf ((hs.filter (fun h => kindOf g h.ty == 4 || kindOf g h.ty == 5)).map (fun h =>
      let d := if kindOf g h.ty = 4 then ((p.win[h.off + 1]?).getD 0).toNat / 4 else be16 p.win h.off / 64 % 64
      bits (pr s p (0x180A300 + 0x10 * p.inst + 4 * (d / 16))) (2 * (d % 16) + 1) (2 * (d % 16)))) s
  else
    pickOf ((hs.filter (fun h => kindOf g h.ty == 2)).map (fun h =>
      let e := be16 p.win h.off / 4096
      bits (pr s p (0x180A200 + 4 * p.inst)) (2 * e + 1) (2 * e))) s

/-- The policed length b (R147). -/
def polLen (s : State) (p : Pkt) : Nat :=
  max 1 (((p.parse.frameLen : Int) + 4 + sgn 8 (bits (pr s p (0x180A180 + 4 * p.inst)) 31 24)).toNat)

/-- CLS_POLSDU[p][x] (14 R393). -/
def polSdu (p x : Nat) : Nat := 0x18C0000 + 0x100000 * p + 4 * x

/-- The stream filter and the meter of a policer (14 R394, R148): the drop reason, or the colour. -/
def meter (p : Pkt) (x : Nat) (s : State) : Except Nat Nat × State :=
  let w := rv s (polSdu p.pipe x)
  if bit w 17 then (.error 0x32, s)
  else if bits w 13 0 != 0 && decide (bits w 13 0 < p.parse.frameLen + 4) then
    (.error 0x30, if bit w 16 then rset s (polSdu p.pipe x) (setBit w 17 true) else s)
  else
    let (cin, s) := colourIn p x s
    let (out, s) := police p.pipe x (polLen s p) cin s
    if out = 2 && rb s (polCfg p.pipe x) 27 then (.error 0x2A, s)
    else if out = 1 && bit w 18 then (.error 0x2D, s)
    else (.ok out, s)

/-- The action list of a lookup's ACTION_ID (R150): none for 0xFFFF, and none where the map holds no slot of the instance. -/
def actList (s : State) (p : Pkt) (w : Nat) : List EditOp :=
  let a := nbits w 63 48
  if 1023 < a then []
  else
    let m := pr s p (0x1810000 + 0x1000 * p.inst + 4 * a)
    let part := rv s (0x180A000 + 4 * p.inst)
    if bit m 31 && decide (bits m 12 0 < bits part 29 16) then mget s.rules.acts (bits part 12 0 + bits m 12 0) [] else []

/-- Apply one operation to the combined result (R151, R153). -/
def actStep (qBase : Nat) (r : Resolved) (o : EditOp) : Resolved :=
  match o.op with
  | 0x20 => { r with queue := qBase + o.imm }
  | 0x21 => { r with colour := some o.a }
  | 0x22 => { r with flow := o.imm }
  | 0x23 => { r with prio := o.a }
  | 0x24 => { r with posy := o.a }
  | 0x25 => { r with mirrors := r.mirrors ++ [(o.b, o.a)] }
  | 0x26 => { r with counts := r.counts ++ [o.imm] }
  | 0x27 => { r with term := max r.term 3, trap := o.a }
  | 0x28 => { r with term := 4 }
  | 0x29 => { r with oneStep := some o.a }
  | 0x2A => { r with scan := some o.b }
  | 0x2B => { r with term := max r.term 1 }
  | 0x2C => { r with term := max r.term 2 }
  | _ => { r with edits := r.edits ++ [o] }

/-- The combined result of the lists of lookups 0 to 3, from the defaults of CLS_INSTCFG (R153). Without SET_QUEUE no
queue is named. -/
def resolve (s : State) (p : Pkt) (lkp : List Nat) : Resolved :=
  let c := pr s p (0x180A100 + 4 * p.inst)
  ((lkp.map (actList s p)).flatten).foldl (actStep (instF s p.inst (·.qBase)))
    { edits := [], queue := 65536, colour := none, flow := bits c 15 0, prio := bits c 18 16, posy := bits c 31 24, mirrors := [],
      counts := [], term := 0, trap := 0, oneStep := none, scan := none }

/-- What a fragment's entry is known by (R135): none for a packet that is no fragment; and whether it is a non-first one.
The outermost fragment counts (DEDUCED). -/
def fragKey (g : Graph) (p : Pkt) : Option (Bool × List Nat) :=
  let hs := p.parse.hdrs
  (List.range hs.length).findSome? (fun k =>
    let h := hdrAt p.parse k
    if kindOf g h.ty = 4 then
      let f := be16 p.win (h.off + 6)
      if nbits f 13 13 = 1 || f % 8192 != 0 then
        some (f % 8192 != 0, [p.inst, 4, be32 p.win (h.off + 12), be32 p.win (h.off + 16), be16 p.win (h.off + 4),
          ((p.win[h.off + 9]?).getD 0).toNat])
      else none
    else if kindOf g h.ty = 7 then
      match (hs.take k).reverse.find? (fun x => kindOf g x.ty == 5) with
      | some x =>
        let f := be16 p.win (h.off + 2)
        if f / 8 != 0 || f % 2 = 1 then
          some (f / 8 != 0, [p.inst, 6, beVal (sliceB p.win (x.off + 8) 16), beVal (sliceB p.win (x.off + 24) 16),
            be32 p.win (h.off + 4)])
        else none
      | none => none
    else none)

/-- The fragment-follow table of a pipe. -/
def fragOf (s : State) (p : Nat) : List FragRec := mget s.rules.frags p []

/-- Replace the fragment-follow table of a pipe. -/
def setFrag (p : Nat) (l : List FragRec) (s : State) : State :=
  { s with rules := { s.rules with frags := mput s.rules.frags p l [] } }

/-- Remove the entries of a pipe that have lived FRAG_LIFE_MS (R135). -/
def fragPurge (p : Nat) (s : State) : State :=
  let life := rf s (0x1408100 + 0x100000 * p) 7 0 * 1000000
  let l := (fragOf s p).filter (fun f => decide (s.clk.fab < f.at_ + life))
  cntAdd (prsCnt p 5) ((fragOf s p).length - l.length) (setFrag p l s)

/-- A first fragment creates or replaces its entry (R135). -/
def fragNote (p : Nat) (f : FragRec) (s : State) : State :=
  let l := (fragOf s p).filter (fun x => x.key != f.key)
  if 8192 ≤ l.length then cnt (prsCnt p 3) s else setFrag p (l ++ [f]) s

/-- The drop reason of each flag (R131). -/
def flagReason (f : Nat) : Nat := ([0x21, 0x22, 0x26, 0x23, 0x2E, 0x24, 0x25, 0x2F][f]?).getD 0x21

/-- What the flag actions of an instance decide (R131): the drop reason, or whether it is an exception. -/
def flagAct (s : State) (i flags : Nat) : Option Nat × Bool :=
  let act (f : Nat) : Nat := rf s (0x1408000 + 4 * i) (2 * f + 1) (2 * f)
  let fs := (List.range 8).filter (fun f => flags.testBit f)
  ((fs.find? (fun f => act f == 2)).map flagReason, fs.any (fun f => act f == 1))

/-- The capture bucket, filled to now, in bits (18 R495). -/
def capFill (s : State) : Nat :=
  min (9216 * 8) (s.jnl.capBits + rf s 0x408014 6 0 * (s.clk.fab - s.jnl.capAt))

/-- A flow lies in a valid JNL_CAPFLOW range (18 R495). -/
def capFlow (s : State) (f : Nat) : Bool :=
  (List.range 8).any (fun e =>
    let w := rv s (0x408020 + 4 * e)
    bit w 31 && decide (bits w 15 0 ≤ f) && decide (f ≤ bits w 15 0 + bits w 30 16))

/-- The words of a captured frame. -/
def capWords : Nat → List Byte → List Nat
  | 0, _ => []
  | n + 1, l => leVal (sliceB l 0 8) :: capWords n (l.drop 8)

/-- The CAPTURE record of a packet, where the rate admits it (18 R495). -/
def capture (p : Pkt) (seq : Nat) (s : State) : State :=
  let b := capFill s
  let n := p.win.length
  if b < n * 8 then cnt (jnlCnt 3) { s with jnl := { s.jnl with capBits := b, capAt := s.clk.fab } }
  else
    let s := { s with jnl := { s.jnl with capBits := b - n * 8, capAt := s.clk.fab } }
    let r := jnlPut false ((2 * 2 ^ 62 + n % 16384 * 2 ^ 48 + p.pipe % 4 * 2 ^ 46 + seq % 2 ^ 32) :: capWords (cdiv n 8) p.win) s
    if r.2 then cnt (jnlCnt 2) r.1 else r.1

/-- The PACKET record of a packet at its first parse, with its target posy or 0xFF, and its capture where its ordering flow
is one to capture (18 R493, R495). A DELTA that does not fit follows a TIMEBASE record and is a free value. -/
def jnlPacket (c posy : Nat) (flow : Option Nat) (s : State) : State :=
  match pktOf s c with
  | none => s
  | some p =>
    if !(p.pass = 0 && p.jseq.isNone && jnlOn s && jnlInst s p.inst) then s
    else
      let d := match mfind s.jnl.lastPkt p.pipe with
        | some t => some (s.clk.fab - t)
        | none => none
      let (delta, s) := match d with
        | some d => if d ≤ 8191 then (d, s) else
            let (w, s) := drawWord (jnlTimebase p.pipe s)
            (bits w 12 0, s)
        | none =>
          let (w, s) := drawWord (jnlTimebase p.pipe s)
          (bits w 12 0, s)
      let dig := (crcR crc32cPoly 0xFFFFFFFF p.win ^^^ 0xFFFFFFFF) % 65536
      let q := s.jnl.jseq
      let s := setPkt c { p with jseq := some q } { s with jnl := { s.jnl with jseq := q + 1, lastPkt := mins s.jnl.lastPkt p.pipe s.clk.fab } }
      let r := jnlPut true [p.pipe % 4 * 2 ^ 60 + delta % 8192 * 2 ^ 47 + p.inPort % 128 * 2 ^ 40 + p.parse.frameLen % 16384 * 2 ^ 26 +
        posy % 256 * 2 ^ 18 + dig * 4 + p.slot % 4] s
      let s := if r.2 then cnt (jnlCnt 0) r.1 else r.1
      match flow with
      | some f => if capFlow s f then capture p q s else s
      | none => s

/-- Submit a packet's payload to its pipe's pattern engine (R145, R146). -/
def scanAsk (c set : Nat) (s : State) : State :=
  match pktOf s c with
  | none => s
  | some p =>
    let n := min 9216 ((if p.parse.dataEnd = 0 then p.parse.frameLen else p.parse.dataEnd) - p.parse.endOff)
    match scanTakes p.pipe p.inst set n s with
    | (false, s) => setPkt c { p with scan := some set, verdict := verdictNone.toNat } s
    | (true, s) =>
      let s := setPkt c { p with scan := some set } s
      { s with hif := { s.hif with patQ := mput s.hif.patQ p.pipe (mget s.hif.patQ p.pipe [] ++ [(c, p.pass, n)]) [] } }

/-- Add 1 and the policed length to the counters of the COUNT operations (R151). -/
def countActs (p : Pkt) (l : List Nat) (s : State) : State :=
  foldS l (fun n s => match countAt s p.inst (bits (pr s p (0x180A180 + 4 * p.inst)) 16 0) n with
    | some a => countAdd a (polLen s p) s
    | none => s) s

/-- Make the mirror copies of a packet; those past the second are counted and ignored (R153). -/
def mirrorActs (c : Nat) (l : List (Nat × Nat)) (s : State) : State :=
  match pktOf s c with
  | none => s
  | some p =>
    let s := foldS (l.take 2) (fun (m : Nat × Nat) s => (mirrorCopy c m.1 m.2 s).2) s
    let s := cntAdd (egrCnt p.inst 1) (l.length - 2) s
    setPkt c { (pktOf s c).getD p with mirrors := min 2 l.length } s

/-- What the combined result of a packet leads to (R153, R162). -/
def classRoute (c : Nat) (r : Resolved) (s : State) : State :=
  match pktOf s c with
  | none => s
  | some p =>
    let s := mirrorActs c r.mirrors (countActs p r.counts s)
    let none_ (s : State) : State := jnlPacket c 0xFF none s
    if r.term = 4 then pktDrop 0x29 c (none_ s)
    else if !editFits s p.inst r.edits then pktDrop 0x31 c (none_ s)
    else
      let s := match r.scan with
        | some b => scanAsk c b s
        | none => s
      let s := if r.term = 3 then settle c (.host r.trap) (none_ s)
        else if r.term = 2 then settle c .recirc (none_ s)
        else
          let gone := r.term = 0 && (posyRec s r.posy).all (fun x => x.inst != p.inst)
          ctxAsk c (jnlPacket c (if r.term = 1 || gone then 0xFF else r.posy) (some r.flow) s)
      s

/-- The outcome of classification is stamped on the packet. -/
def classStamp (c : Nat) (lkp : List Nat) (colour : Nat) (r : Resolved) (s : State) : State :=
  match pktOf s c with
  | none => s
  | some p =>
    let g := graphOf s p.inst p.slot
    let one := match r.oneStep with
      | some h => if (p.parse.hdrs[h]?).any (fun x => kindOf g x.ty == 12) then some h else none
      | none => none
    let p' : Pkt := { p with
      lkp := lkp, colour := r.colour.getD colour, edits := r.edits, oneStep := one, posy := r.posy, flow := r.flow, wprio := r.prio,
      queue := r.queue, direct := decide (r.term = 1) }
    setPkt c p' s

/-- Classify a packet that no flag action drops or diverts, as a packet of its own (R142 to R153): `note` is the entry key
it leaves as a first fragment. A packet with no policer is green (DEDUCED). -/
def classFresh (c : Nat) (p : Pkt) (note : Option (List Nat)) (s : State) : State :=
  let (lkp, s) := profAll p s
  let res := resolve s p lkp
  let (x, s) := polSelect p lkp s
  let (m, s) := match x with
    | some x => meter p x s
    | none => (.ok 0, s)
  let col := match m with
    | .ok v => v
    | .error d => if d = 0x2A then 2 else if d = 0x2D then 1 else 0
  let s := match note with
    | some k => fragNote p.pipe { key := k, at_ := s.clk.fab, slot := p.slot, lkp := lkp, colour := col, res := res } s
    | none => s
  match m with
  | .error d => pktDrop d c (jnlPacket c 0xFF none s)
  | .ok col => classRoute c res (classStamp c lkp col res s)

/-- A non-first fragment takes its first fragment's outcome and epoch, and is policed as a packet of its own length
(R135). -/
def classFollow (c : Nat) (p : Pkt) (f : FragRec) (s : State) : State :=
  let s := cnt (prsCnt p.pipe 2) s
  let s := setPkt c { p with slot := f.slot, parse := { p.parse with epoch := rf s (epochSts p.inst f.slot) 15 0 } }
    (epochDec p.inst p.slot (epochInc p.inst f.slot s))
  let p := { p with slot := f.slot }
  let (x, s) := polSelect p f.lkp s
  let (m, s) := match x with
    | some x => meter p x s
    | none => (.ok 0, s)
  match m with
  | .error d => pktDrop d c (jnlPacket c 0xFF none s)
  | .ok _ => classRoute c f.res (classStamp c f.lkp f.colour f.res s)

/-- CLASSIFY_PACKET: the first parsed packet of a pipe is classified (R131, R135 to R137, R142 to R153). -/
def execClassifyPacket (pipe : Fin 4) (s : State) : Result :=
  let pp := pipe.val
  .next (match mget s.port.toClass pp [] with
    | [] => s
    | c :: t =>
      if !running s 14 pp then s
      else
        let s := { s with port := { s.port with toClass := mput s.port.toClass pp t [] } }
        match pktOf s c with
        | none => s
        | some p =>
          let s := fragPurge pp s
          let fk := if pipeLong s pp then none else fragKey (graphOf s p.inst p.slot) p
          let hit := match fk with
            | some (true, k) => (fragOf s pp).find? (fun f => f.key == k)
            | _ => none
          let early : Bool := match fk, hit with
            | some (true, _), none => true
            | _, _ => false
          let flags := if early then p.parse.flags ||| 2 ^ fEARLY else p.parse.flags
          let p := { p with parse := { p.parse with flags := flags } }
          let s := setPkt c p (if early then countFlags p.inst (2 ^ fEARLY) s else s)
          match flagAct s p.inst flags with
          | (some r, _) => pktDrop r c (jnlPacket c 0xFF none s)
          | (none, true) => settle c (.host (256 + flags)) (jnlPacket c 0xFF none s)
          | (none, false) => match hit with
            | some f => classFollow c p f s
            | none => classFresh c p (match fk with
                | some (false, k) => some k
                | _ => none) s)

/-- SCAN_VERDICT: a pattern engine completes its oldest scan, and the verdict reaches the packet's item (R145). -/
def execScanVerdict (pipe : Fin 4) (v : Word) (s : State) : Result :=
  .next (match mget s.hif.patQ pipe.val [] with
    | [] => s
    | (c, pass, n) :: t =>
      if !active s 15 0 then s
      else
        let s := { s with hif := { s.hif with patQ := mput s.hif.patQ pipe.val t [] } }
        let s := scanCount pipe.val n (verdictOf v) s
        match pktOf s c with
        | none => s
        | some p =>
          if p.pass != pass then s
          else
            let s := setPkt c { p with verdict := (verdictOf v).toNat } s
            match s.dsp.items.find? (fun e => e.2.cell == some c && e.2.kind == 0) with
            | some (e, it) => if it.slots.contains 3 then itemCheck e (setItem e { it with got := 2 :: it.got } s) else s
            | none => s)

/-- FRAG_ENTRY_EXPIRE: the entries of a pipe's table that have lived their time are removed (R135). -/
def execFragEntryExpire (pipe : Fin 4) (s : State) : Result := .next (fragPurge pipe.val s)

/-- FRAG_FLUSH: FLUSH written to PRS_FRAGCMD (R136). -/
def execFragFlush (r : Req) (pipe : Fin 4) (s : State) : Result :=
  .next (asked r (0x1401C00 + 0x100000 * pipe.val) (setFrag pipe.val []) s)

/-- The instance whose partition holds an action slot (R150). -/
def actOwner (s : State) (slot : Nat) : Option Nat :=
  (List.range 32).find? (fun i =>
    let w := rv s (0x180A000 + 4 * i)
    decide (bits w 12 0 ≤ slot) && decide (slot < bits w 12 0 + bits w 29 16))

/-- A port that a mirror copy of an instance may take (R152, 02 R72). -/
def mirrorPortOk (s : State) (i n : Nat) : Bool :=
  n == 120 || hostPort s i == some n || (decide (n < 64) && portInst s n == some i)

/-- An operation is legal for an instance when its list is written (R151, R152). -/
def actOk (s : State) (i : Nat) (o : EditOp) : Bool :=
  let noB := o.b == 0
  let noI := o.imm == 0
  let noA := o.a == 0
  match o.op with
  | 0x20 => noA && noB && decide (o.imm < instF s i (·.qCount))
  | 0x21 => decide (o.a ≤ 2) && noB && noI
  | 0x22 => noA && noB && decide (o.imm < 65536) && flowOf s i o.imm
  | 0x23 => decide (o.a ≤ 7) && noB && noI
  | 0x24 => noB && noI && (posyRec s o.a).any (fun r => r.inst == i)
  | 0x25 => noI && mirrorPortOk s i o.b
  | 0x26 => noA && noB && (countAt s i (bits (rShow s (0x180A180 + 4 * i)) 16 0) o.imm).isSome
  | 0x27 => noB && noI
  | 0x28 | 0x2B | 0x2C => noA && noB && noI
  | 0x29 => decide (o.a ≤ 23) && noB && noI
  | 0x2A => noA && noI && decide (o.b < 64) && rf s (0x1C08000 + 0x10 * o.b) 28 24 == i
  | _ => editOk s i o

/-- The operations of 128 list bytes, up to END or the 16th (R150); none where END names an operand. -/
def actParse : Nat → List Byte → Option (List EditOp)
  | 0, _ => some []
  | n + 1, l =>
    let o : EditOp := { op := leVal (sliceB l 0 1), a := leVal (sliceB l 1 1), b := leVal (sliceB l 2 2), imm := leVal (sliceB l 4 4) }
    if o.op = 0 then (if o.a = 0 && o.b = 0 && o.imm = 0 then some [] else none)
    else (actParse n (l.drop 8)).map (fun t => o :: t)

/-- The action slots that the maps of live epochs name (R150). -/
def liveSlots (s : State) : List Nat :=
  (s.rules.epochs.map (fun e =>
    let i := e.1 / 4
    let base := rf s (0x180A000 + 4 * i) 12 0
    (e.2.rules.filter (fun r => decide (0x1810000 + 0x1000 * i ≤ r.1) && decide (r.1 < 0x1811000 + 0x1000 * i) && bit r.2 31)).map
      (fun r => base + bits r.2 12 0))).flatten

/-- ACTION_WRITE: WRITE in CLS_ACTCMD writes a whole slot from CLS_ACTDATA (R150, R152). -/
def execActionWrite (r : Req) (pipe : Fin 4) (s : State) : Result :=
  let a := 0x1802000 + 0x100000 * pipe.val
  .next (asked r (a + 4) (fun s =>
    let slot := rf s a 12 0
    match actParse 16 (wordBytes ((List.range 32).map (fun w => rv s (a + 0x100 + 4 * w)))), actOwner s slot with
    | some l, some i =>
      if !l.all (actOk s i) then cfgReject 14 pipe.val s
      else if (liveSlots s).contains slot then blkMod s 14 pipe.val (fun k => { k with cfgBusy := true })
      else { s with rules := { s.rules with acts := mput s.rules.acts slot l [] } }
    | _, _ => cfgReject 14 pipe.val s) s)

/-- PAT_SET_ENABLE: a write of PAT_SETCFG[set] that sets VALID reads the automaton (R158). `good`: it is signed and well
formed. -/
def execPatSetEnable (r : Req) (set : Fin 64) (v : Word) (good : Bool) (s : State) : Result :=
  let a := 0x1C08000 + 0x10 * set.val
  .next (askedX r a (fun s =>
    let inst := bits v 28 24
    let fits := (rv s (a + 4)).toNat + (rv s (a + 8)).toNat ≤ instF s inst (·.dramSize) * 256
    if rb s a 31 || !bit v 31 || !good || !decide fits || !((regRow a).all (fun d => d.legal v)) then cfgReject 15 0 s
    else match regRow a with
      | some d => expertSet a (rset s a (d.apply (rv s a) v))
      | none => s) s)

/-- Template `t` is named by a list that a live epoch's map names (R159). -/
def tmplLive (s : State) (t : Nat) : Bool :=
  (liveSlots s).any (fun k => match actOwner s k with
    | some i => (mget s.rules.acts k []).any (fun o => o.op == 0x12 && rf s (0x3C08000 + 4 * i) 9 0 + o.b == t)
    | none => false)

/-- TEMPLATE_WRITE: WRITE in EGR_TMPLCMD writes a template from EGR_TMPLDATA (R159). -/
def execTemplateWrite (r : Req) (s : State) : Result :=
  .next (asked r 0x3C01004 (fun s =>
    let t := rf s 0x3C01000 9 0
    if tmplLive s t then blkMod s 25 0 (fun k => { k with cfgBusy := true })
    else
      let n := rf s 0x3C01140 6 0
      let bs := (((List.range 16).map (fun w => beBytes 4 (rv s (0x3C01100 + 4 * w)).toNat)).flatten).take n
      let x : Tmpl := { bytes := bs, ipOff := rf s 0x3C01144 31 24, udpOff := rf s 0x3C01144 23 16 }
      { s with rules := { s.rules with tmpls := mput s.rules.tmpls t x { bytes := [], ipOff := 255, udpOff := 255 } } }) s)

end Sys2Proof.Machine
end

