-- ==== Sys2Proof/Machine/PetalPkt.lean ====
section
/-! DEFINITION. Taking work, packets, edit lists, buffers, items and ordering: the Petal instructions of
09_petal_packet_ops.md R265 to R279, the free store's own events (12_buffer_pools.md R336 to R345), and the dispatcher's
delivery (05_dispatch_order.md R171 to R174). -/

namespace Sys2Proof.Machine

/-- The words of an item's descriptor as the dispatcher filled it in (05 R160). -/
def itemWords (it : Item) : List Word :=
  let k (n : Nat) : Nat := (it.slots[n]?).getD 0
  [w32 (it.kind % 4 * 2 ^ 30 + it.prio % 8 * 2 ^ 27 + b2n it.ordered * 2 ^ 26 + b2n it.handoff * 2 ^ 25 + it.inst % 32 * 2 ^ 16 +
     it.oflow % 65536),
   w32 (it.posy % 256 * 2 ^ 24 + k 3 % 8 * 2 ^ 21 + k 2 % 8 * 2 ^ 18 + k 1 % 8 * 2 ^ 15 + k 0 % 8 * 2 ^ 12), it.pkt, it.arg]

/-- The LOOKUP area: the four result words, a profile that is not valid reading as a miss (R265). -/
def lookupWords (l : List Nat) : List Word :=
  ((List.range 4).map (fun k => let w := (l[k]?).getD missWord
    [w32 w, w32 (w / 2 ^ 32)])).flatten

/-- The message areas of an item's MSG slots (R265). The data of a MISSING slot is a free value. -/
def msgAreas (c b : Nat) (it : Item) : List Nat → State → State
  | [], s => s
  | k :: t, s =>
    if (it.slots[k]?).getD 0 = 4 then
      match mfind it.msg k with
      | some ws => msgAreas c b it t (cmWords c (b + 0xC0 + 16 * k) ws s)
      | none =>
        let (w0, s) := drawWord s
        let (w1, s) := drawWord s
        let (w2, s) := drawWord s
        let (w3, s) := drawWord s
        msgAreas c b it t (cmWords c (b + 0xC0 + 16 * k) [w0, w1, w2, w3] s)
    else msgAreas c b it t s

/-- The operand areas of the context block (R265): an area the item does not declare is left as it is; a HANDOFF item
carries its packet's operands as they were delivered to the creator. -/
def operandAreas (c b : Nat) (it : Item) (s : State) : State :=
  let s := match it.cell.bind (pktOf s) with
    | some p =>
      let ws := parseWords p.parse
      let s := if it.slots.contains 1 || it.handoff then cmWords c (b + 0x20) (ws ++ List.replicate (28 - ws.length) 0) s else s
      let s := if it.slots.contains 2 || (it.handoff && !p.lkp.isEmpty) then cmWords c (b + 0x90) (lookupWords p.lkp) s else s
      if it.slots.contains 3 || (it.handoff && p.scan.isSome) then cmWords c (b + 0xB0) [w32 p.verdict] s else s
    | none => s
  msgAreas c b it [0, 1, 2, 3] s

/-- GETW commits with an item (R266): the context block, g14, PKT, the edit buffer and RUN_US. -/
def deliver (e tid : Nat) (s : State) : State :=
  match itemOf s e with
  | none => s
  | some it =>
    let c := tid / 8
    let b := cblk tid
    let st := ((it.got.map (fun k => 2 ^ (4 + k))).sum + (it.miss.map (fun k => 2 ^ k)).sum) % 256
    let s := cmWords c b (itemWords it ++ [w32 (widOf s e), w32 st, 0, 0]) s
    let s := cmWords c (b + 0xB4) [0, 0, 0] s
    let s := operandAreas c b it s
    let s := setItem e { it with st := .held } (itemCtxSt it .run s)
    let s := cnt (dspCnt it.inst 1) s
    let t := setG (thr s tid) 14 (tvInt (w32 b))
    let t := { t with pkt := (if it.cell.isSome then { v := it.pkt, tag := tBUF } else TV.void), ctx := it.ctx, entry := some e, edit := it.edits, runAt := s.clk.fab, st := .ready, wait := .none, bkSkip := false, step := if t.step = 1 then 2 else t.step }
    commitCnt c (setThr tid (advance t.wnext t) s)

/-- The entries at the heads of the highest non-empty level of the ready lists of an instance whose subtree holds an
eligible worker thread (05 R171). -/
def candidates (s : State) (i : Nat) : List (Nat × Item) :=
  (s.img.posy.filter (fun r => r.inst == i)).filterMap (fun r =>
    if (eligIn s r.id).isEmpty then none
    else ([7, 6, 5, 4, 3, 2, 1, 0].findSome? (fun l => (mget s.dsp.ready (r.id * 8 + l) []).head?)).bind (fun e =>
      (itemOf s e).map (fun it => (e, it))))

/-- The candidate that goes first: the highest PRIO, then the earliest ready time, then the lowest POSY (05 R171). -/
def bestItem (l : List (Nat × Item)) : Option (Nat × Item) :=
  l.foldl (fun o p => match o with
    | none => some p
    | some b => if b.2.prio < p.2.prio || (p.2.prio == b.2.prio && (decide (p.2.readyAt < b.2.readyAt) ||
        (p.2.readyAt == b.2.readyAt && decide (p.2.list < b.2.list)))) then some p else some b) none

/-- The worker thread of a core that has waited longest in GETW, among those allowed (05 R171). -/
def longestWait (s : State) (l : List Nat) : Option Nat :=
  l.foldl (fun o t => match o with
    | none => some t
    | some b => if (thr s t).gseq < (thr s b).gseq then some t else some b) none

/-- One dispatch slot (05 R171). Answers whether an item was delivered. -/
def dispatchSlot (s : State) : Bool × State :=
  match (List.range 32).findSome? (fun k =>
      let i := (s.dsp.lastInst + 1 + k) % 32
      (bestItem (candidates s i)).map (fun p => (i, p))) with
  | none => (false, s)
  | some (i, e, it) =>
    match spreadWalk it.avoid 10 it.list s with
    | (none, s) => (false, s)
    | (some x, s) =>
      let ws := match posyRec s x with
        | some _ => (eligFor s x it.avoid)
        | none => []
      match longestWait s ws with
      | none => (false, s)
      | some t =>
        let s := readyDrop it.list it.prio e { s with dsp := { s.dsp with lastInst := i } }
        (true, deliver e t s)

/-- Up to `n` dispatch slots of one FAB cycle. -/
def dispatchN : Nat → State → State
  | 0, s => s
  | n + 1, s => match dispatchSlot s with
    | (true, s) => dispatchN n s
    | (false, s) => s

/-- DISPATCH: the dispatcher makes up to four dispatches (05 R171). -/
def execDispatch (s : State) : Result := .next (if running s 16 0 && running s 18 0 then dispatchN 4 s else s)

/-- The context block of a thread holds a BUF. -/
def blockBuf (s : State) (tid : Nat) : Bool :=
  (List.range 64).any (fun k => cmTag s (tid / 8) (cblk tid + 4 * k) == tBUF)

/-- What a worker thread's GETW does with what the thread holds (R268): none is TAG_FAULT. -/
def getwDrop (x : PCx) (s : State) : Option State :=
  let t := x.t
  let held := (thrCell s x.tid).isSome
  if !x.plain && (blockBuf s x.tid || (noPkt t && held)) then none
  else if held then some (dispose x.tid (.drop 0x42) s)
  else
    let s := match t.ctx with
      | some c => ctxDone c .none s
      | none => s
    let s := match t.entry with
      | some e => if 8192 ≤ e then itemFree e s else s
      | none => s
    some (thrForget x.tid s)

/-- GETW (R266 to R268); the fused unit's state returns to its start (10 R290). -/
def execGetw (th : Thr) (f : Form) (s : State) : Result :=
  .next (petal .getw th f s (fun _ => opNone [14])
    (fun x s =>
      if isSup s x.tid then
        if !x.plain && blockBuf s x.tid then .flt s 2 0
        else
          .wait (evKick x.tid (thrMod x.tid (fun t => { t with st := .getw, wnext := x.next, depth := 0, pos := 0, bfp := 0, bfw := 32 }) s))
      else match getwDrop x s with
        | none => .flt s 2 0
        | some s =>
          let (q, s) := nextSeq s
          .wait (thrMod x.tid (fun t => { t with st := .getw, wnext := x.next, depth := 0, pos := 0, bfp := 0, bfw := 32, gseq := q }) s)))

/-- A disposition of the thread's packet (R269). -/
def dispBody (d : PCx → State → Except Nat Disp) (x : PCx) (s : State) : PRes :=
  if noPkt x.t then .flt s 9 0
  else match d x s with
    | .error k => .flt s k 0
    | .ok d => .ok (dispose x.tid d s)

/-- The queue at an offset of the thread's instance: it must be below QUEUE_COUNT and a queue of the QHIE section (R269). -/
def queueAt (s : State) (tid o : Nat) : Except Nat Disp :=
  let i := tinst s tid
  let q := instF s i (·.qBase) + o
  if o < instF s i (·.qCount) && (qRec s q).isSome then .ok (.send q) else .error 0x0B

/-- SEND. -/
def execSend (th : Thr) (f : Form) (s : State) : Result :=
  .next (petal .send th f s (fun x => opInt [x.rs] []) (dispBody (fun x s => queueAt s x.tid (valR x.t x.rs).toNat)))

/-- SENDI. -/
def execSendi (th : Thr) (f : Form) (s : State) : Result :=
  .next (petal .sendi th f s (fun _ => opNone []) (dispBody (fun x s => queueAt s x.tid x.f.imm.toNat)))

/-- DROP. -/
def execDrop (th : Thr) (f : Form) (s : State) : Result :=
  .next (petal .dropOp th f s (fun _ => opNone []) (dispBody (fun _ _ => .ok (.drop 0x42))))

/-- RECIRC (R271). -/
def execRecirc (th : Thr) (f : Form) (s : State) : Result :=
  .next (petal .recirc th f s (fun _ => opNone []) (dispBody (fun _ _ => .ok .recirc)))

/-- TOHOST: an instance without a host port is OPERAND_BAD (R269). -/
def execTohost (th : Thr) (f : Form) (s : State) : Result :=
  .next (petal .tohost th f s (fun _ => opNone [])
    (dispBody (fun x s => if (hostPort s (tinst s x.tid)).isSome then .ok (.host (x.f.imm.toNat % 256)) else .error 0x0B)))

/-- Judge the port of MIRROR (R270): the fault, if any. The null port 127 is no port R152 permits and no other instance's:
OPERAND_BAD (DEDUCED). -/
def mirrorFault (s : State) (i n : Nat) : Option Nat :=
  if mirrorPortOk s i n then none
  else if n < 97 then some 0x0A else some 0x0B

/-- MIRROR (R270). -/
def execMirror (th : Thr) (f : Form) (s : State) : Result :=
  .next (petal .mirror th f s (fun x => opInt [x.rd, x.rs] [])
    (fun x s =>
      if noPkt x.t then .flt s 9 0
      else match mirrorFault s (tinst s x.tid) (valR x.t x.rd).toNat with
        | some k => .flt s k 0
        | none =>
          if 144 < (valR x.t x.rs).toNat then .flt s 0x0B 0
          else match thrCell s x.tid with
            | none => commitT x (fun t => { t with z := false }) s
            | some c =>
              let p := thrPkt s x.tid
              if 2 ≤ p.mirrors then commitT x (fun t => { t with z := false }) s
              else
                let (ok, s) := mirrorCopy c (valR x.t x.rd).toNat (valR x.t x.rs).toNat s
                let s := if ok then setPkt c { (pktOf s c).getD p with mirrors := p.mirrors + 1 } s else s
                commitT x (fun t => { t with z := ok }) s))

/-- PKTLEN: FRAME_LEN from word 1 of PARSE. -/
def execPktlen (th : Thr) (f : Form) (s : State) : Result :=
  .next (petal .pktlen th f s (fun x => opNone [x.rd])
    (fun x s =>
      let a := cblk x.tid + 0x24
      if noPkt x.t then .flt s 9 0
      else if cmPoison s x.core a then .flt s 8 0
      else commitT x (fun t => setG t x.rd (tvInt (w32 (nbits (cmRead s x.core a 4) 29 16)))) s))

/-- EDADD (R272, R273). -/
def execEdadd (th : Thr) (f : Form) (s : State) : Result :=
  .next (petal .edadd th f s (fun x => opInt [x.rs, x.rt] [x.rd])
    (fun x s =>
      let w := valR x.t x.rs
      let o : EditOp := { op := bits w 7 0, a := bits w 15 8, b := bits w 31 16, imm := (valR x.t x.rt).toNat }
      let i := tinst s x.tid
      if (thrCell s x.tid).isNone then .flt s 9 0
      else if !editOk s i o then .flt s 0x0B 0
      else
        let l := x.t.edit ++ [o]
        if editFits s i l then commitT x (fun t => setG { t with edit := l, z := true } x.rd (tvInt (w32 l.length))) s
        else commitT x (fun t => setG { t with z := false } x.rd (tvInt (w32 x.t.edit.length))) s))

/-- EDRD (R272). -/
def execEdrd (th : Thr) (f : Form) (s : State) : Result :=
  .next (petal .edrd th f s (fun x => opNone [x.rd])
    (fun x s =>
      let n := x.f.imm.toNat
      if (thrCell s x.tid).isNone then .flt s 9 0
      else match x.t.edit[n / 2]? with
        | some o =>
          let v := if n % 2 = 0 then o.op % 256 + o.a % 256 * 256 + o.b % 65536 * 65536 else o.imm
          commitT x (fun t => setG { t with z := false } x.rd (tvInt (w32 v))) s
        | none => commitT x (fun t => setG { t with z := true } x.rd (tvInt 0)) s))

/-- ALLOC (R274, 12 R342). -/
def execAlloc (th : Thr) (f : Form) (s : State) : Result :=
  .next (petal .alloc th f s (fun x => opNone [x.rd])
    (fun x s =>
      let i := tinst s x.tid
      let k := x.f.imm.toNat
      if !ownsPool s i k then .flt s 0x0A 0
      else match allocOp i k (pipeOf s x.core) s with
        | (some h, s) => commitT x (fun t => setG { t with z := true } x.rd (tvOf x.plain h tBUF)) s
        | (none, s) => commitT x (fun t => setG { t with z := false } x.rd (tvOf x.plain 0 tVOID)) s))

/-- FREE (R275): in a tagged posy the BUF is consumed. -/
def execFree (th : Thr) (f : Form) (s : State) : Result :=
  .next (petal .freeOp th f s (fun x => { reads := [x.rs], moves := [], dsts := [], ok := fun t => tagR t x.rs == tBUF })
    (fun x s =>
      let h := valR x.t x.rs
      let s := if x.plain then s else thrMod x.tid (fun t => setG t x.rs TV.void) s
      .ok (gateFree (tinst s x.tid) x.tid h s)))

/-- FREE_APPLY: the oldest accepted free reaches its cache (12 R345). -/
def execFreeApply (s : State) : Result :=
  .next (match s.bpm.frees with
    | [] => s
    | (k, q, j) :: t => if active s 21 0 then poolFree1 k q j { s with bpm := { s.bpm with frees := t } } else s)

/-- CACHE_REFILL (12 R340). -/
def execCacheRefill (k : Fin 16) (q : Fin 4) (s : State) : Result :=
  .next (if running s 21 0 then poolRefill k.val q.val s else s)

/-- CACHE_SPILL (12 R340, R341). -/
def execCacheSpill (k : Fin 16) (q : Fin 4) (s : State) : Result :=
  .next (if running s 21 0 then poolSpill k.val q.val s else s)

/-- An extent of a pool in bytes, as (placement, start, length): placement 0 is the pool area, 1 DRAM (12 R334). A ring
takes whole units of its placement. -/
def poolExtents (s : State) (k : Nat) (cfg : Word) : List (Nat × Nat × Nat) :=
  let n := poolCount s k
  let sz := n * (256 * 2 ^ bits cfg 23 20)
  let u (pl : Nat) : Nat := if pl = 1 then 1048576 else 4096
  let p := bits cfg 30 30
  let r := bits cfg 29 29
  [(p, rf s (poolCfg k + 4) 16 0 * u p, sz), (r, rf s (poolCfg k + 8) 16 0 * u r, cdiv (n * 4) (u r) * u r)]

/-- Two extents of one placement overlap. -/
def extOver (a b : Nat × Nat × Nat) : Bool := a.1 == b.1 && decide (a.2.1 < b.2.1 + b.2.2) && decide (b.2.1 < a.2.1 + a.2.2)

/-- The placement of a pool is not reserved (12 R333 to R336): whole in its space, clear of the pools and rings it may not
overlap, its buffers clear of its ring, and its chain legal. "Any other pool of the same instance in DRAM" is one that is
enabled, as in the pool area (DEDUCED). -/
def poolPlaced (s : State) (k : Nat) (cfg : Word) : Bool :=
  match poolInst s k with
  | none => false
  | some i =>
    let es := poolExtents s k cfg
    let fits (e : Nat × Nat × Nat) : Bool :=
      decide (e.2.1 + e.2.2 ≤ if e.1 = 1 then instF s i (·.dramSize) * 1048576 else 2097152)
    let others := (List.range 16).filter (fun j => j != k && poolValid s j)
    let clear (e : Nat × Nat × Nat) : Bool := others.all (fun j => (poolExtents s j (rv s (poolCfg j))).all (fun o =>
      !extOver e o || (e.1 == 1 && poolInst s j != some i)))
    let own := match es with
      | [a, b] => !extOver a b
      | _ => true
    let nx := bits cfg 3 0
    es.all fits && es.all clear && own && (!bit cfg 8 || (ownsPool s i nx && decide (bits cfg 23 20 < rf s (poolCfg nx) 23 20)))

/-- POOL_ENABLE: a write of BPM_POOLCFG[k] that sets VALID (12 R336, R338). -/
def execPoolEnable (r : Req) (k : Fin 16) (v : Word) (s : State) : Result :=
  let k := k.val
  .next (askedX r (poolCfg k) (fun s =>
    if poolValid s k || !bit v 31 || !((regRow (poolCfg k)).all (fun d => d.legal v)) || !poolPlaced s k v then cfgReject 21 0 s
    else match regRow (poolCfg k) with
      | some d => poolInit k (expertSet (poolCfg k) (rset s (poolCfg k) (d.apply (rv s (poolCfg k)) v)))
      | none => s) s)

/-- The buffer BLD and BST reach, or the fault (R276). -/
def bldRef (x : PCx) (s : State) : Except Nat BufRef :=
  match bufRef s (tinst s x.tid) (thrCell s x.tid) (valR x.t x.rs) with
  | .error 5 => .error 0x0A
  | .error _ => .error 0x0B
  | .ok b => match b.loc with
    | .dram _ => .error 0x0B
    | _ => .ok b

/-- BLD. -/
def execBld (th : Thr) (f : Form) (s : State) : Result :=
  .next (petal .bld th f s
    (fun x => { reads := [x.rs, x.rt], moves := [], dsts := [x.rd], ok := fun t => tagR t x.rs == tBUF && tagR t x.rt == tINT })
    (fun x s => match bldRef x s with
      | .error k => .flt s k 0
      | .ok b =>
        let o := (valR x.t x.rt).toNat
        let n := sizeBytes x.f
        if b.size < o + n then .flt s 3 o
        else if x.f.err.val = 2 then pktBadRead x s
        else commitT x (fun t => setG t x.rd (tvInt (w32 (beVal (bufRead s b o n))))) s))

/-- The original cells that a write of `n` bytes at `o` touches first (18 R476): cell number and bytes. -/
def cellsToSave (p : Pkt) (o n : Nat) : List (Nat × List Byte) :=
  ((List.range (cdiv (o + n) 256)).filter (fun k => decide (o / 256 ≤ k) && !mhas p.saved k)).map
    (fun k => (k, (p.bytes.drop (256 * k)).take 256))

/-- BST (R276, R277, 18 R476). -/
def execBst (th : Thr) (f : Form) (s : State) : Result :=
  .next (petal .bst th f s
    (fun x => { reads := [x.rs, x.rt, x.rd], moves := [], dsts := [],
                ok := fun t => tagR t x.rs == tBUF && tagR t x.rt == tINT && tagR t x.rd == tINT })
    (fun x s => match bldRef x s with
      | .error k => .flt s k 0
      | .ok b =>
        let o := (valR x.t x.rt).toNat
        let n := sizeBytes x.f
        let bs := beBytes n (valR x.t x.rd).toNat
        if b.size < o + n then .flt s 3 o
        else match b.loc with
          | .pkt c => match pktOf s c with
            | none => .ok s
            | some p =>
              let l := cellsToSave p o n
              if sharedFree s < (l.length : Int) then
                .wait (thrMod x.tid (fun t => { t with st := .stall, stallAt := s.clk.fab, wait := .cell }) s)
              else
                let s := setPkt c { p with saved := l.foldl (fun m q => mins m q.1 q.2) p.saved }
                  { s with port := { s.port with sharedUsed := s.port.sharedUsed + l.length } }
                .ok (bufWrite b o bs s)
          | _ => .ok (bufWrite b o bs s)))

/-- ORDX (05 R178). -/
def execOrdx (th : Thr) (f : Form) (s : State) : Result :=
  .next (petal .ordx th f s (fun _ => opNone [])
    (fun x s => match x.t.ctx with
      | none => .ok s
      | some c =>
        let k := ctxOf s c
        match k.st with
        | .unord => .ok s
        | _ => .ok (orderWake (cnt (0x2401108 + 0x20 * k.inst) (setCtx c { k with st := .unord } s)))))

/-- The words of a block of core-local memory that an instruction reads whole, or what it answers (07 R235, steps 11 to
13): its bounds, its alignment, errors, poison marks and tags. -/
def cmBlock (x : PCx) (a : Nat) (n : Nat) (s : State) : Except PRes (List Word) :=
  let ks := List.range n
  if 0x20000 < a + 4 * n then .error (.flt s 3 a)
  else if a % 4 ≠ 0 then .error (.flt s 4 a)
  else if x.f.err.val = 2 then .error (cmBad x a s)
  else if ks.any (fun k => cmPoison s x.core (a + 4 * k)) then .error (.flt s 8 0)
  else if !x.plain && ks.any (fun k => cmTag s x.core (a + 4 * k) != tINT) then
    .error (.flt s (if ks.any (fun k => cmTag s x.core (a + 4 * k) == tPOISON) then 8 else 2) 0)
  else .ok (ks.map (fun k => w32 (cmRead s x.core (a + 4 * k) 4)))

/-- An accepted HANDOFF item takes the thread's packet, context and edit buffer (R278, 05 R163): its entry. -/
def handoff (x : PCx) (c cell : Nat) (ws : List Word) (s : State) : Nat × State :=
  let i := tinst s x.tid
  let s := savedFree cell (if mhas s.dsp.items c then itemFree c s else s)
  let p := (pktOf s cell).getD Pkt.init
  let it := { itemFrom i ws s.clk.fab with
    pkt := pktHandle i cell, cell := some cell, ctx := some c, edits := x.t.edit, seq := p.jseq }
  let s := cnt (dspCnt i 0) (setItem c it (itemCtxSt it .mtch s))
  (c, itemCheck c (thrForget x.tid s))

/-- MKITEM (R278). -/
def execMkitem (th : Thr) (f : Form) (s : State) : Result :=
  .next (petal .mkitem th f s (fun x => opInt [x.rs] [x.rd])
    (fun x s => match cmBlock x (valR x.t x.rs).toNat 4 s with
      | .error r => r
      | .ok ws =>
        let i := tinst s x.tid
        let tctx := match thrCell s x.tid with
          | some _ => x.t.ctx
          | none => none
        let no (st : Nat) (s : State) : PRes := commitT x (fun t => setG { t with z := false } x.rd (tvInt (w32 st))) (cnt (dspCnt i 7) s)
        let yes (e : Nat) (s : State) : PRes := commitT x (fun t => setG { t with z := true } x.rd (tvInt (w32 (widOf s e)))) s
        match itemJudge i 1 tctx ws s with
        | 0 =>
          if bit ((ws[0]?).getD 0) 25 then
            match tctx, thrCell s x.tid with
            | some c, some cell =>
              let (e, s) := handoff x c cell ws s
              yes e s
            | _, _ => no 3 s
          else match itemMake i (some x.tid) ws s with
            | (some e, s) => yes e s
            | (none, s) => no 4 s
        | st => no st s))

/-- SENDMSG (R279). -/
def execSendmsg (th : Thr) (f : Form) (s : State) : Result :=
  .next (petal .sendmsg th f s (fun x => opInt [x.rs] [x.rd])
    (fun x s => match cmBlock x (valR x.t x.rs).toNat 6 s with
      | .error r => r
      | .ok ws =>
        let w (k : Nat) : Word := (ws[k]?).getD 0
        let (st, s) := msgSend (tinst s x.tid) (w 0).toNat (if 3 < (w 1).toNat then 4 else (w 1).toNat) (ws.drop 2) s
        commitT x (fun t => setG { t with z := decide (st = 0) } x.rd (tvInt (w32 st))) s))

end Sys2Proof.Machine
end

