-- ==== Sys2Proof/Machine/DspCmd.lean ====
section
/-! DEFINITION. The dispatcher's own commands: host items and messages, operands and their time limits, context waits,
ordered release, delay lists and the DEADLOCK detector (05_dispatch_order.md R163 to R187), and the return of an item to
its ready list (18_resilience_replay.md R478). -/

namespace Sys2Proof.Machine

/-- The instance a host item or message is sent for: a virtual function's own, which it names as itself or as 0; the one
the physical function or the steward names (R163). None where the value is reserved. -/
def hostInst (s : State) (r : Req) (n : Nat) : Option Nat :=
  match r with
  | .vf _ => match reqInst s r with
    | some i => if n = 0 || n = i then some i else none
    | none => none
  | _ => some n

/-- The four words a requester has staged from an offset. -/
def staged4 (s : State) (r : Req) (off : Nat) : List Word := (List.range 4).map (fun w => rv s (reqKey r (off + 4 * w)))

/-- HOST_ITEM_CREATE: CREATE in DSP_HCMD with the words of DSP_HITEM (R163, R189). -/
def execHostItemCreate (r : Req) (inst : Fin 32) (s : State) : Result :=
  .next (askedW r 0x2001110 (inst.val * 256) (fun s => match hostInst s r inst.val with
    | none => cfgReject 16 0 s
    | some i => match itemCreate i 3 none (staged4 s r 0x2001100) s with
      | (st, some e, s) => rset (rset s (reqKey r 0x2001130) (w32 st)) (reqKey r 0x2001134) (w32 (widOf s e))
      | (st, none, s) => rset s (reqKey r 0x2001130) (w32 st)) s)

/-- HOST_MSG_SEND: MSG in DSP_HCMD with DSP_HMSGDST, DSP_HMSGSLOT and DSP_HMSG (R166, R189). -/
def execHostMsgSend (r : Req) (inst : Fin 32) (s : State) : Result :=
  .next (askedW r 0x2001110 (inst.val * 256) (fun s => match hostInst s r inst.val with
    | none => cfgReject 16 0 s
    | some i =>
      let (st, s) := msgSend i (rv s (reqKey r 0x2001114)).toNat (rf s 0x2001118 1 0) (staged4 s r 0x2001120) s
      rset s (reqKey r 0x2001130) (w32 (256 + st))) s)

/-- An operand the hardware brings is there to arrive: a scan's verdict only once no scan of the packet is left (R165,
04 R145). -/
def operandHere (s : State) (it : Item) (k : Nat) : Bool :=
  match (it.slots[k]?).getD 0 with
  | 1 => true
  | 2 => true
  | 3 => s.hif.patQ.all (fun p => p.2.all (fun q => some q.1 != it.cell))
  | _ => false

/-- OPERAND_ARRIVE: the operand of a PARSE, LOOKUP or PATTERN slot reaches a waiting item (R165). -/
def execOperandArrive (e : Fin 16384) (slot : Fin 4) (s : State) : Result :=
  .next (if running s 16 0 then match itemOf s e.val with
    | some it => match it.st with
      | .waiting =>
        if operandHere s it slot.val && !it.got.contains slot.val then
          itemCheck e.val (setItem e.val { it with got := slot.val :: it.got } s)
        else s
      | _ => s
    | none => s
  else s)

/-- MSG_WAIT_US of an instance in nanoseconds; 0 sets no limit (R167). -/
def msgWait (s : State) (i : Nat) : Nat := rf s (0x2008080 + 4 * i) 31 16 * 1000

/-- MSG_WAIT_EXPIRE: an item that has waited its limit enters its ready list, its empty MSG slots marked MISSING; each
missing message is a journal input (R167, 18 R494). -/
def execMsgWaitExpire (e : Fin 16384) (s : State) : Result :=
  .next (if running s 16 0 then match itemOf s e.val with
    | some it => match it.st with
      | .waiting =>
        let w := msgWait s it.inst
        if w = 0 || decide (s.clk.fab < it.created + w) then s
        else
          let miss := (List.range 4).filter (fun k => (it.slots[k]?).getD 0 == 4 && !it.got.contains k)
          let s := miss.foldl (fun s k => jnlInput 8 (itemWho s it) [k + 4, 0, 0] s) s
          itemReady e.val (cnt (dspCnt it.inst 4) (setItem e.val { it with miss := miss } s))
      | _ => s
    | none => s
  else s)

/-- CTX_WAIT_TIMEOUT: the first packet of a context-wait list that is lossy and has waited CTX_WAIT_US is dropped
(R169). -/
def execCtxWaitTimeout (i : Fin 32) (pipe : Fin 4) (s : State) : Result :=
  .next (if running s 16 0 then
    let w := rf s (0x2008080 + 4 * i.val) 15 0 * 1000
    let k := i.val * 4 + pipe.val
    let l := mget s.dsp.wait k []
    match l.find? (fun c => match pktOf s c with
      | some p => decide (p.from_ < 64) && !lossless s p.from_ p.prio && decide (w ≠ 0) && decide (p.since + w ≤ s.clk.fab)
      | none => false) with
    | some c => pktDrop 0x41 c { s with dsp := { s.dsp with wait := mput s.dsp.wait k (l.filter (· != c)) [] } }
    | none => s
  else s)

/-- The head of a flow when it is DONE and so releasable (R177). -/
def flowDue (s : State) (f : Nat) : Option Nat :=
  match flowHead s f with
  | some x => if (ctxOf s x).st = .done then some x else none
  | none => none

/-- The flows with a releasable head, in ascending number from the one after `last` (R177). -/
def flowsDue (s : State) (last : Nat) : List Nat :=
  let l := (mkeys s.dsp.flows).filter (fun f => (flowDue s f).isSome)
  l.filter (fun f => decide (last < f)) ++ l.filter (fun f => decide (f ≤ last))

/-- Release the heads of a list of flows in order. -/
def releaseFlows : List Nat → State → State
  | [], s => s
  | f :: t, s => match flowDue s f with
    | some x => releaseFlows t (ctxRelease x { s with dsp := { s.dsp with lastFlow := f } })
    | none => releaseFlows t s

/-- CONTEXT_RELEASE: one FAB cycle of ordered release, at most 4 contexts and one of each flow (R177). -/
def execContextRelease (s : State) : Result :=
  .next (if running s 17 0 then releaseFlows ((flowsDue s s.dsp.lastFlow).take 4) s else s)

/-- A delay-list entry is taken off its list. -/
def dlRemove (n : Nat) (s : State) : State := { s with dsp := { s.dsp with dl := mdel s.dsp.dl n } }

/-- TIMER_FIRE: the next entry of a delay list fires (R183). -/
def execTimerFire (l : Fin 16) (s : State) : Result :=
  .next (if running s 16 0 then match dlNext s l.val with
    | none => s
    | some (n, e) =>
      let late (s : State) : State :=
        if decide (e.due + dlTick s e.list < s.clk.fab) then cnt (dspCnt e.inst 6) s else s
      if e.create then
        match itemCreate e.inst 2 none e.words s with
        | (st, _, s) =>
          if st = 4 || st = 5 then { s with dsp := { s.dsp with dl := mins s.dsp.dl n { e with after := s.clk.fab } } }
          else late (dlRemove n s)
      else late (dlRemove n (msgSend e.inst ((e.words[0]?).getD 0).toNat e.slot (e.words.drop 1) s).2)
  else s)

/-- The set W of a posy, in ascending core and thread (R184). -/
def wSet (s : State) (x : Nat) : List Nat :=
  sortAsc ((((posyCores s 9 x).map (workersOf s)).flatten).filter (fun t => match (thr s t).st with
    | .off => false
    | .bound => false
    | .stopped => false
    | .held => false
    | _ => true))

/-- A thread is blocked (R184). -/
def thrBlocked (s : State) (t : Nat) : Bool := decide ((thr s t).st = .blocked)

/-- The posy tree at or below `x` holds posy `y`. -/
def posyIn (s : State) (x y : Nat) : Bool := (posyChain s y 9).contains x

/-- The thread that holds the head of the flow a thread waits in. -/
def flowHolder (s : State) (t : Nat) : Option Nat :=
  match (thr s t).ctx with
  | some x => match flowHead s (ctxOf s x).flow with
    | some h => (s.cores.thr.find? (fun p => p.2.ctx == some h)).map (·.1)
    | none => none
  | none => none

/-- A lock or flow head awaited by a thread of W is held outside W by a thread that is not blocked; the steward, which
acquires and frees locks as a thread does, counts as one (R185, DEDUCED). -/
def heldOutside (s : State) (w : List Nat) (t : Nat) : Bool :=
  match (thr s t).wait with
  | .lock n => match (lockOf s n).holder with
    | some h => h = stwId || (!w.contains h && !thrBlocked s h)
    | none => true
  | .order => match flowHolder s t with
    | some h => !w.contains h && !thrBlocked s h
    | none => false
  | _ => false

/-- A pending delivery to posy `x` exists (R185). -/
def deliveryDue (s : State) (x : Nat) (w : List Nat) : Bool :=
  let i := match posyRec s x with
    | some r => r.inst
    | none => 32
  s.dsp.dl.any (fun p => p.2.inst == i) ||
  s.cpx.ctx.any (fun p => match p.2.cmd with
    | some c => w.contains c.tid
    | none => false) ||
  s.dsp.wait.any (fun p => p.1 / 4 == i && p.2.any (fun c => match pktOf s c with
    | some q => posyIn s x q.posy
    | none => false)) ||
  s.dsp.items.any (fun p => p.2.inst == i && p.2.cell.isSome && posyIn s x p.2.posy && decide (p.2.st ≠ .held)) ||
  w.any (heldOutside s w)

/-- The condition of the detector of posy `x` (R186). -/
def deadlocked (s : State) (x : Nat) : Bool :=
  let w := wSet s x
  !w.isEmpty && w.all (thrBlocked s) && !deliveryDue s x w

/-- The detector of posy `x` can raise its event: it is enabled and has not fired in the present period (R186, R189). -/
def deadlockReady (s : State) (x : Nat) : Bool :=
  rb s (0x2008400 + 4 * x) 31 && !s.dsp.qdFired.contains x && deadlocked s x

/-- A snapshot record of a thread (R187). The context number of a channel record names no context that is held: it is a
free value. -/
def snapRec (t : Nat) (s : State) : Nat × State :=
  let th := thr s t
  let base := t / 8 % 256 * 2 ^ 56 + t % 8 * 2 ^ 53
  let hold (o : Option Nat) : Nat := match o with
    | some h => if h = stwId then 0 else 2 ^ 50 + h / 8 % 256 * 2 ^ 42 + h % 8 * 2 ^ 39
    | none => 0
  match th.wait with
  | .lock n => (base + hold (lockOf s n).holder + n % 2 ^ 32, s)
  | .event n => (base + 2 ^ 51 + n % 2 ^ 32, s)
  | .clk u =>
    let (k, s) := drawPick 8 s
    (base + 2 * 2 ^ 51 + hold (cpxOf s (clusterOf s (t / 8)) u k).holder + (u * 8 + k), s)
  | .order => (base + 3 * 2 ^ 51 + hold (flowHolder s t) + (match th.ctx with
      | some x => (ctxOf s x).flow
      | none => 0), s)
  | _ => (base, s)

/-- Write the records of a list of threads from an address. -/
def snapWrite : List Nat → Nat → State → State
  | [], _, s => s
  | t :: l, a, s =>
    let (w, s) := snapRec t s
    snapWrite l (a + 8) (dramWr a (leBytes 8 w) s)

/-- A blocked supervisor is woken by DEADLOCK: its wait is abandoned without a grant (R186, 09 R280, R283). -/
def deadlockWake (tid : Nat) (s : State) : State :=
  let t := thr s tid
  if decide (liveSt t = .blocked) then
    match t.wait with
    | .lock _ => commitCnt (tid / 8) (thrMod tid (fun t => wake (advance t.wnext { t with z := false, v := false })) s)
    | .clk _ => match t.reacq with
      | [] => commitCnt (tid / 8) (thrMod tid (fun t => wake (advance t.wnext { t with z := false, v := false })) s)
      | _ => s
    | .event _ => commitCnt (tid / 8)
        (thrMod tid (fun t => wake (advance t.wnext (setG { t with z := false } t.wrd (tvInt 0)))) s)
    | .order => thrMod tid (fun t => if t.st = .stopped then { t with back := .ready, wait := .none }
        else { t with st := .ready, wait := .none }) s
    | _ => s
  else s

/-- DEADLOCK_DETECT: the detector of a posy has seen its condition for TIME_US (R186): it writes the snapshot of R187 and
raises DEADLOCK, the innermost posy first, once in each period; where the condition does not hold it arms again. -/
def execDeadlockDetect (x : Fin 255) (s : State) : Result :=
  .next (if !running s 16 0 then s
    else if !deadlocked s x.val then { s with dsp := { s.dsp with qdFired := s.dsp.qdFired.filter (· != x.val) } }
    else if !deadlockReady s x.val then s
    else if s.img.posy.any (fun r => r.id != x.val && posyIn s x.val r.id && deadlockReady s r.id) then s
    else match posyRec s x.val with
      | none => s
      | some r =>
        let w := wSet s x.val
        let off := rf s (0x2008100 + 4 * r.inst) 24 0 * 4096 + 8192 * x.val
        let (c, s) := drawWord s
        let s := snapWrite w (instF s r.inst (·.dramBase) * 1048576 + off) s
        let s := cnt (dspCnt r.inst 5) { s with dsp := { s.dsp with qdFired := x.val :: s.dsp.qdFired } }
        let s := evPosy x.val { code := 0x61, posy := x.val, core := bits c 7 0, thread := bits c 10 8, pc := 0,
                                info := w.length, info2 := off / 64 } s
        match supOf s x.val with
        | some u => deadlockWake u s
        | none => s)

/-- REEXEC_READY: an item that is to be executed again enters its ready level at the head; one mapped to a core by its hash
keeps that core unless it was retired; its context stays in RUN (18 R478, R180). -/
def execReexecReady (e : Fin 16384) (s : State) : Result :=
  .next (if running s 16 0 then match itemOf s e.val with
    | some it => match it.st with
      | .again =>
        let kept := match posyRec s it.list with
          | some r => rb s (0x2008000 + 4 * it.inst) 31 && it.cell.isSome && !r.isSet && !coreGone s r.core
          | none => false
        let l := if kept then it.list else readyList s it
        readyHead l it.prio e.val (setItem e.val { it with st := .ready, list := l } s)
      | _ => s
    | none => s
  else s)

end Sys2Proof.Machine
end

