-- ==== Sys2Proof/Machine/CoreCmd.lean ====
section
/-! DEFINITION. What befalls cores and threads from outside their programs: parity errors, watchdogs, the limit on a
disposition, rewritten instruction lines, joining spares, and the debugger (06_cores_threads.md R195 to R213). -/

namespace Sys2Proof.Machine

/-- The number of a thread. -/
def tidTh (t : Thr) : Nat := tidOf t.core.val t.thread.val

/-- A thread that executes or waits to: neither OFF nor BOUND. -/
def thrLive (s : State) (tid : Nat) : Bool :=
  match (thr s tid).st with
  | .off => false
  | .bound => false
  | _ => true

/-- CORE_PARITY: a parity error in a pipeline register or control state of a thread (R199). -/
def execCoreParity (t : Thr) (s : State) : Result :=
  .next (if running s 18 0 && thrLive s (tidTh t) then hwFault (tidTh t) 0x19 s else s)

/-- The stall watchdog of a thread has expired (R203). -/
def wdogDue (s : State) (tid : Nat) : Bool :=
  let t := thr s tid
  (decide (t.st = .stall) && decide (t.stallAt + rf s 0x2808000 7 0 * 1000 ≤ s.clk.fab)) ||
  (t.entry.isSome && decide (t.st ≠ .held) && decide (t.st ≠ .stopped) &&
    decide (t.runAt + rf s 0x2808000 31 16 * 1000 ≤ s.clk.fab))

/-- STALL_WDOG_EXPIRE (R203). -/
def execStallWdogExpire (t : Thr) (s : State) : Result :=
  .next (if running s 18 0 && thrLive s (tidTh t) && wdogDue s (tidTh t) then hwFault (tidTh t) 0x1A s else s)

/-- FAULT_DISP_TIMEOUT: no FDISP within FAULT_US of the FAULT record's entry into the queue: DROP is applied (R204,
R207). -/
def execFaultDispTimeout (t : Thr) (s : State) : Result :=
  .next (match (thr s (tidTh t)).st, (thr s (tidTh t)).flt with
    | .held, some fl => match fl.queuedAt with
      | some q =>
        if running s 18 0 && decide (q + rf s 0x2808004 15 0 * 1000 ≤ s.clk.fab) then
          fdispApply (tidTh t) 2 fl (cnt (coreCnt t.core.val 5) s)
        else s
      | none => s
    | _, _ => s)

/-- FETCH_LINE_REWRITE: the steward rewrites an instruction line from its retained copy, so that the line holds what it held
(R195); a rewrite that fails leaves the line in error. Both are reported (18 R483). -/
def execFetchLineRewrite (cluster : Fin 32) (line : Fin 8192) (ok : Bool) (s : State) : Result :=
  .next (
    let k := cluster.val * 8192 + line.val
    if mget s.cores.badLine k false then
      if ok then
        ercReport 0x85 1 0 cluster.val (64 * line.val) (clusterInst s cluster.val)
          { s with cores := { s.cores with badLine := mput s.cores.badLine k false false } }
      else ercReport 0x85 2 2 cluster.val (64 * line.val) (clusterInst s cluster.val) s
    else s)

/-- The words of core-local memory from key `a` on copied to key `b`, with their tags and poison marks. -/
def cmCopy (c x : Nat) (s : State) : State :=
  { s with cores := { s.cores with
      mem := mcopy s.cores.mem (c * 131072) (x * 131072) 131072,
      tags := mcopy s.cores.tags (c * 32768) (x * 32768) 32768,
      poison := mcopy s.cores.poison (c * 32768) (x * 32768) 32768 } }

/-- A word that had an uncorrectable error arrives poisoned; in a tagged posy it carries tag POISON (R212). -/
def cmSpoil (x w : Nat) (s : State) : State :=
  let s := cmSetPoison x (4 * w) true s
  if plainOf s (tidOf x 0) then s else cmSetTag x (4 * w) tPOISON s

/-- The threads of a spare that joins: a supervisor of the retired core starts at SUP_ENTRY, every other is BOUND with its
PC at WORKER_ENTRY (R212); in an instance that does not run all are OFF. -/
def joinThread (run : Bool) (tid : Nat) (s : State) : State :=
  if !run then setThr tid Thread.init s
  else if isSup s tid then thrRestart tid (entryOf s tid true) s
  else setThr tid { Thread.init with st := .bound, pc := entryOf s tid false } s

/-- SPARE_JOIN: a chosen spare joins the cluster of the core it replaces (R212, 01 R33). `bad` names the words whose copy met
an uncorrectable error. -/
def execSpareJoin (spare : Fin 4) (bad : List (Fin 32768)) (s : State) : Result :=
  .next (
    let x := 128 + spare.val
    let r := coreRec s x
    match r.src with
    | none => s
    | some c =>
      if r.spareActive || r.retired || !running s 18 0 then s
      else
        let s := bad.foldl (fun s w => cmSpoil x w.val s) (cmCopy c x s)
        let s := coreMod x (fun r => { r with spareActive := true, src := none }) s
        let run := match coreInst s x with
          | some i => decide (insState s i = .run)
          | none => false
        let s := (List.range 8).foldl (fun s k => joinThread run (tidOf x k) s) s
        match recChain s x with
        | p :: _ => evPosy p { code := 0x65, posy := p, core := x, thread := 0, pc := 0, info := c, info2 := 0 } s
        | [] => s)

/-- The result of a debug command. -/
def dbgSts (r : Req) (k : Nat) (s : State) : State := rset s (reqKey r 0x2807810) (w32 k)

/-- The threads a debug command's scope names: 0 a thread, 1 a core, 2 every core of a posy's subtree (R208, R213); none
where it names nothing that exists. -/
def dbgScope (s : State) (scope core thread posy : Nat) : Option (Nat × List Nat) :=
  if scope = 2 then match posyRec s posy with
    | some r => some (r.inst, ((posyCores s 9 posy).map (fun c => (List.range 8).map (tidOf c))).flatten)
    | none => none
  else if 131 < core then none
  else match coreInst s core with
    | some i => some (i, if scope = 0 then [tidOf core thread] else (List.range 8).map (tidOf core))
    | none => none

/-- The requester's session admits core debugging of an instance (17 R455). In BLANK and RETIRED debug is open with no token
(17 R448): to a virtual function for its own instance. -/
def dbgOpen (s : State) (r : Req) (i : Nat) : Bool :=
  (let own := match r with
    | .vf _ => reqInst s r == some i
    | _ => true
   (rf s 0x201400 17 16 == 0 || rf s 0x201400 17 16 == 3) && own) ||
  match mfind s.sec.sess (reqIdx r) with
  | some x => x.rights.testBit 0 && x.mask.testBit i
  | none => false

/-- A debug command: DENIED without a valid unlock for the instance it names (R213). -/
def dbgCmd (r : Req) (op scope core thread posy : Nat) (f : List Nat → State → State) (s : State) : State :=
  askedW r 0x2807804 (op * 2 ^ 28 + scope * 2 ^ 26 + core * 2 ^ 18 + thread * 2 ^ 15 + posy * 2 ^ 7) (fun s => match dbgScope s scope core thread posy with
    | some (i, ts) => if dbgOpen s r i then f ts s else dbgSts r 1 s
    | none => dbgSts r 1 s) s

/-- STOP_HOLD (R209). -/
def execStopHold (r : Req) (scope : Fin 3) (core : Fin 256) (thread : Fin 8) (posy : Fin 256) (s : State) : Result :=
  .next (dbgCmd r 1 scope.val core.val thread.val posy.val
    (fun ts s => dbgSts r 0 (ts.foldl (fun s t => stopThread false t s) s)) s)

/-- STOP_YIELD (R210). -/
def execStopYield (r : Req) (scope : Fin 3) (core : Fin 256) (thread : Fin 8) (posy : Fin 256) (s : State) : Result :=
  .next (dbgCmd r 2 scope.val core.val thread.val posy.val
    (fun ts s => dbgSts r 0 (ts.foldl (fun s t => stopThread true t s) s)) s)

/-- DEBUG_RESUME (R210). -/
def execDebugResume (r : Req) (scope : Fin 3) (core : Fin 256) (thread : Fin 8) (posy : Fin 256) (s : State) : Result :=
  .next (dbgCmd r 3 scope.val core.val thread.val posy.val
    (fun ts s => dbgSts r 0 (ts.foldl (fun s t => resumeThread t s) s)) s)

/-- A thread is STOPPED. -/
def isStopped (s : State) (t : Nat) : Bool := decide ((thr s t).st = .stopped)

/-- A stopped thread goes on for one instruction (R213). -/
def stepThread (t : Nat) (s : State) : State :=
  thrMod t (fun t => { t with step := 1 }) (resumeThread t s)

/-- DEBUG_STEP (R213). -/
def execDebugStep (r : Req) (scope : Fin 3) (core : Fin 256) (thread : Fin 8) (posy : Fin 256) (s : State) : Result :=
  .next (dbgCmd r 4 scope.val core.val thread.val posy.val
    (fun ts s =>
      let l := ts.filter (isStopped s)
      if l.isEmpty then dbgSts r 2 s else dbgSts r 0 (l.foldl (fun s t => stepThread t s) s)) s)

/-- The register DBGSEL names, as REG_READ shows it (R211, R213): a KEY reads as data 0. LS, LE and LC stand in this order,
four of each (DEDUCED). -/
def dbgGet (s : State) (tid k : Nat) : TV :=
  let t := thr s tid
  let plain := plainOf s tid
  if k < 16 then
    let x := getG plain t k
    if x.tag = tKEY then { v := 0, tag := tKEY } else x
  else if k = 16 then tvInt (w32 t.pc)
  else if k = 17 then tvInt (flWord plain t)
  else if k < 22 then tvInt (w32 (lvOf t (k - 18)).ls)
  else if k < 26 then tvInt (w32 (lvOf t (k - 22)).le)
  else if k < 30 then tvInt (lvOf t (k - 26)).lc
  else tvInt (w32 t.base)

/-- REG_WRITE of the register DBGSEL names; each takes the bits of its width. -/
def dbgPut (plain : Bool) (k : Nat) (v : Word) (tag : Nat) (t : Thread) : Thread :=
  if k < 16 then setG t k (tvOf plain v tag)
  else if k = 16 then { t with pc := bits v 18 0 }
  else if k = 17 then { t with z := bit v 0, n := bit v 1, c := bit v 2, v := bit v 3 }
  else if k < 22 then setLv t (k - 18) { lvOf t (k - 18) with ls := bits v 18 0 }
  else if k < 26 then setLv t (k - 22) { lvOf t (k - 22) with le := bits v 19 0 }
  else if k < 30 then setLv t (k - 26) { lvOf t (k - 26) with lc := v }
  else { t with base := bits v 1 0 }

/-- REG_READ (R211). -/
def execRegRead (r : Req) (t : Thr) (s : State) : Result :=
  .next (dbgCmd r 5 0 t.core.val t.thread.val 0 (fun _ s =>
    if isStopped s (tidTh t) then
      let x := dbgGet s (tidTh t) (rf s (reqKey r 0x2807800) 5 0)
      dbgSts r 0 (rset (rset s (reqKey r 0x2807808) x.v) (reqKey r 0x280780C) (w32 x.tag))
    else dbgSts r 2 s) s)

/-- REG_WRITE (R211): a tag it may not place is a reserved value, which is rejected. -/
def execRegWrite (r : Req) (t : Thr) (s : State) : Result :=
  .next (dbgCmd r 6 0 t.core.val t.thread.val 0 (fun _ s =>
    let tag := rf s (reqKey r 0x280780C) 3 0
    if !(isStopped s (tidTh t)) then dbgSts r 2 s
    else if !([0, 1, 5, 15].contains tag) then cfgReject 18 0 s
    else
      dbgSts r 0 (thrMod (tidTh t) (dbgPut (plainOf s (tidTh t)) (rf s (reqKey r 0x2807800) 5 0)
        (rv s (reqKey r 0x2807808)) tag) s)) s)

end Sys2Proof.Machine
end

