-- ==== Sys2Proof/Machine/HostCmd.lean ====
section
/-! DEFINITION. The host rings: doorbells, enabling, the fetch of frames, the delivery of frames, errors and interrupts
(16_instances.md R426 to R430). What host memory holds, and whether a DMA succeeds, the environment supplies. -/

namespace Sys2Proof.Machine

/-- The instance of a function that exists and runs: its rings work (R426, R431). -/
def fnRuns (s : State) (f : Nat) : Bool :=
  match portInst s (64 + f) with
  | some i => decide (insState s i = .run)
  | none => false

/-- DOORBELL: the host sets the index it owns; a value that would give the ring more entries than it holds is rejected
(R426). -/
def execDoorbell (r : Req) (f : Fin 33) (k : Fin 32) (v : Fin 131072) (s : State) : Result :=
  .next (asked r (0x3F05000 + 0x80 * f.val + 4 * k.val) (fun s =>
    let x := ringOf s f.val k.val
    let n := if k.val < 16 then (v.val + 2 ^ 17 - x.dev) % 2 ^ 17 else (x.dev + 2 ^ 17 - v.val) % 2 ^ 17
    if ringSize s f.val k.val < n then cfgReject 28 0 s
    else setRing f.val k.val { x with host := v.val } s) s)

/-- A word is legal in HIF_RCFG of a ring (R442): the fields of other kinds of ring are 0 and the vector is one of the
function's. -/
def rcfgLegal (f k : Nat) (w : Word) : Bool :=
  (match findReg hifRegs (rcfg f k) with
    | some d => d.legal w
    | none => false) &&
  (bits w 21 20 == 0 || (decide (8 ≤ k) && decide (k < 16))) && (!bit w 11 || (decide (16 ≤ k) && decide (k < 24))) &&
  decide (bits w 8 0 < if f = 0 then 512 else 48)

/-- A write of HIF_RCFG (R426, R442): accepted while VALID is 0 or when it sets or clears VALID; VALID from 0 to 1 sets both
indices to 0 and clears ERR, and needs the function's instance to run (R431). -/
def rcfgWrite (f k : Nat) (w : Word) (s : State) : State :=
  let old := rb s (rcfg f k) 31
  if !rcfgLegal f k w || (old && bit w 31) || (!old && bit w 31 && !fnRuns s f) then cfgReject 28 0 s
  else
    let s := expertSet (rcfg f k) (rset s (rcfg f k) (w &&& 0x9F3FF9FF))
    if !old && bit w 31 then setRing f k Ring.init s else s

/-- RING_ENABLE: VALID of HIF_RCFG is set with the fields of `v` (R426). -/
def execRingEnable (r : Req) (f : Fin 33) (k : Fin 32) (v : Word) (s : State) : Result :=
  .next (askedX r (rcfg f.val k.val) (fun s => rcfgWrite f.val k.val (setBit v 31 true) s) s)

/-- A rotation of 0 to n − 1 that begins after `last`. -/
def rotAfter (n last : Nat) : List Nat := (List.range n).map (fun k => (last + 1 + k) % n)

/-- A TX ring with a descriptor to fetch. -/
def txReady (s : State) (f k : Nat) : Bool := ringLive s f k && decide (0 < ringLen s f k)

/-- The function and ring whose descriptor is fetched next (R427). -/
def txNext (s : State) : Option (Nat × Nat) :=
  match (rotAfter 33 s.hif.lastFn).find? (fun f => fnRuns s f && (List.range 8).any (txReady s f)) with
  | none => none
  | some f => match (rotAfter 8 (mget s.hif.lastTx f 7)).find? (txReady s f) with
    | some k => some (f, k)
    | none => none

/-- A descriptor of R427 is well formed: address, a length from 14 to 9,212 and INTR, every other bit 0. -/
def txDescOk (d2 d3 : Word) : Bool :=
  decide (14 ≤ bits d2 13 0) && decide (bits d2 13 0 ≤ 9212) && bits d2 15 14 == 0 && bits d2 31 17 == 0 && d3 == 0

/-- TX_FETCH: the next descriptor, as host memory holds it (`d2` and `d3`, its words 2 and 3), and its frame, the bytes read at
its address, are fetched into host cells (R427). -/
def execTxFetch (d2 d3 : Word) (frame : List Byte) (s : State) : Result :=
  .next (match txNext s with
    | none => s
    | some (f, k) =>
      if !running s 28 0 then s
      else if !txDescOk d2 d3 then
        ringStop f k 1 (cnt (hifCnt f 4) { s with hif := { s.hif with lastFn := f, lastTx := mins s.hif.lastTx f k } })
      else
        let bs := sliceB frame 0 (bits d2 13 0)
        let bs := bs ++ List.replicate (60 - bs.length) 0
        let n := cdiv bs.length 256
        if rf s 0x1009100 17 0 < s.port.hostUsed + n then s
        else match portInst s (64 + f), freeCell s with
          | some i, (some cell, s) =>
            let s := setPkt cell { Pkt.init with
              inst := i, win := bs, bytes := bs, inPort := 64 + f, from_ := 64 + f, pipe := f % 4,
              rxNs := s.clk.ns, rxSec := s.clk.sec, cells := n } s
            let q := mget s.port.toParse (f % 4) []
            let s := { s with
              port := { s.port with hostUsed := s.port.hostUsed + n, toParse := mput s.port.toParse (f % 4) (q ++ [cell]) [] },
              hif := { s.hif with lastFn := f, lastTx := mins s.hif.lastTx f k } }
            let s := ringAdvance f k (cnt (hifCnt f 0) s)
            if bit d2 16 then ringIrq f k s else s
          | _, (_, s) => s)

/-- The completion of a frame for the host (R428). -/
def rxCompletion (p : Pkt) (len : Nat) (trunc : Bool) (buf : Nat) : List Word :=
  let kind := match p.trap with
    | none => 0
    | some c => if c < 256 then 1 else 2
  [w32 (kind * 2 ^ 28 + b2n trunc * 2 ^ 27 + p.trap.getD 0 % 256 * 2 ^ 16 + len % 2 ^ 14),
   w32 (p.parse.epoch % 65536 * 2 ^ 16 + p.inPort % 128), w32 p.rxNs, w32 (buf % 2 ^ 17)]

/-- HOST_RX_DELIVER: the first frame for a host port is written to the buffer its RXB descriptor names (`d` its four words, as host
memory holds them), then its completion to the RXC ring (R428). A buffer descriptor with a non-zero reserved bit stops the
RXB ring (R430). -/
def execHostRxDeliver (f : Fin 33) (d : Word × Word × Word × Word) (s : State) : Result :=
  .next (match txTake s.port.toTx (64 + f.val) with
    | none => s
    | some (e, rest) =>
      let b := 8 + e.cls
      let c := 16 + e.cls
      if !running s 28 0 || !ringLive s f.val b || !ringLive s f.val c || ringLen s f.val b == 0 ||
          ringLen s f.val c == ringSize s f.val c then s
      else if d.2.2.1 != 0 || d.2.2.2 != 0 then ringStop f.val b 1 (cnt (hifCnt f.val 4) s)
      else
        let p := (pktOf s e.cell).getD Pkt.init
        let cap := 2048 * 2 ^ rf s (rcfg f.val b) 21 20
        let trunc := decide (cap < e.bytes.length)
        let buf := (ringOf s f.val b).dev
        let s := { s with port := { s.port with toTx := rest } }
        let s := emit (.hostWrite f.val (d.1.toNat + d.2.1.toNat * 2 ^ 32) (e.bytes.take cap)) s
        let s := emit (.hostWrite f.val (ringAddr s f.val c (ringOf s f.val c).dev 16)
          (wordBytes (rxCompletion p e.bytes.length trunc buf))) s
        let s := ringAdvance f.val c (ringAdvance f.val b s)
        let s := cnt (hifCnt f.val 1) s
        let s := if trunc then cnt (hifCnt f.val 2) s else s
        let s := if rb s (rcfg f.val c) 11 then ringIrq f.val c s else s
        pktFree e.cell s)

/-- The bit of an AER uncorrectable error, as PCI Express numbers them (PRESUMED): Unsupported Request, Completer Abort, poisoned
completion, completion timeout. -/
def aerBit (k : Nat) : Nat := if k = 0 then 20 else if k = 1 then 15 else if k = 2 then 12 else 14

/-- DMA_ERROR: a DMA of a ring ends in an error: the ring stops with DMA_ERR, and the error is logged in the function's AER
status (R430), whose record the collector keeps (18 R482, DEDUCED). -/
def execDmaError (f : Fin 33) (k : Fin 32) (kind : Fin 4) (s : State) : Result :=
  .next (if ringLive s f.val k.val && running s 28 0 then
    let s := ringStop f.val k.val 2 (cnt (hifCnt f.val 5) s)
    let a := setBit (mget s.hif.aer f.val 0) (aerBit kind.val) true
    let s := { s with hif := { s.hif with aer := mput s.hif.aer f.val a 0 } }
    ercReport 0x8C 2 2 f.val a.toNat none s
  else s)

/-- INTERRUPT_RAISE: a ring's vector that waited for ITR_US is raised (R430). -/
def execInterruptRaise (f : Fin 33) (k : Fin 32) (s : State) : Result :=
  .next (if (ringOf s f.val k.val).irqDue && running s 28 0 then ringIrq f.val k.val s else s)

/-- End every ring of a function: VALID 0 (R436, 19 R505). -/
def ringsEnd (f : Nat) (s : State) : State :=
  foldS (List.range 32) (fun k s => setRing f k Ring.init (rsetF s (rcfg f k) 31 31 0)) s

end Sys2Proof.Machine
end

