-- ==== Sys2Proof/Machine/InsOps.lean ====
section
/-! DEFINITION. Creating, starting, resetting and clearing instances, and what a Function Abort does (16_instances.md R431 to
R441). -/

namespace Sys2Proof.Machine

/-- A virtual function exists (R424). -/
def vfExists (s : State) (v : Nat) : Bool := rb s 0x3F01004 31 && decide (v ≤ rf s 0x3F01004 5 0)

/-- The VF of an instance's record exists, or the record names none (R432). -/
def insVfOk (s : State) (i : Nat) : Bool := let v := instF s i (·.vf); v == 0 || vfExists s v

/-- INS_STATE[i] (R443). -/
def insSts (i : Nat) : Nat := 0x3F81100 + 4 * i

/-- The result of an instance command. -/
def insRes (q k : Nat) (s : State) : State := rset s (0x3F81004 + 67108864 * q) (w32 k)

/-- The physical cores whose record is an instance's, retired ones and spares included. -/
def coresOf (s : State) (i : Nat) : List Nat := (List.range 132).filter (fun c => coreInst s c == some i)

/-- Every thread of an instance's cores is OFF; what it executes is squashed (R436). -/
def threadsOff (i : Nat) (s : State) : State :=
  foldS (coresOf s i) (fun c s => foldS (List.range 8) (fun t s => setThr (tidOf c t) Thread.init s) s) s

/-- Core-local memory of an instance's cores is zeroed with tag VOID (R433, R436). -/
def coresZero (i : Nat) (s : State) : State :=
  foldS (coresOf s i) (fun c s => { s with cores := { s.cores with
    mem := mclear s.cores.mem (c * 131072) 131072, tags := mclear s.cores.tags (c * 32768) 32768,
    poison := mclear s.cores.poison (c * 32768) 32768 } }) s

/-- CREATE's zeroing: the DRAM region, the partition of program scratch, the pool area the pools use, and core-local memory
(R433). -/
def insZero (i : Nat) (s : State) : State :=
  let b := instF s i (·.dramBase) * 1048576
  let n := instF s i (·.dramSize) * 1048576
  let s := { s with dram := mclear s.dram b n, dmc := { s.dmc with bad := mclear s.dmc.bad (b / 64) (n / 64) } }
  let p := rv s (0x3008080 + 4 * i)
  let s := { s with lck := { s.lck with scratch := mclear s.lck.scratch (4096 * bits p 8 0) (4096 * bits p 25 16) } }
  let ks := (List.range 16).filter (ownsPool s i)
  let s := foldS ks (fun k s => foldS (poolExtents s k (rv s (poolCfg k))) (fun (e : Nat × Nat × Nat) s =>
    if e.1 = 0 then { s with bpm := { s.bpm with area := mclear s.bpm.area e.2.1 e.2.2 } } else s) s) s
  coresZero i s

/-- Start an instance (02 R65, R432): the supervisor of the root posy begins at SUP_ENTRY, every other thread is BOUND, and a new
epoch is committed from the shadow rule set. -/
def insStart (i : Nat) (s : State) : State :=
  let s := setIns i .run s
  let root := ownSup s (instF s i (·.root))
  let s := foldS (instCores s i) (fun c s => foldS (List.range 8) (fun t s =>
    let tid := tidOf c t
    let sup := isSup s tid
    setThr tid { Thread.init with
      st := if root == some tid then .ready else .bound, pc := entryOf s tid sup, base := basePrio s tid,
      runAt := s.clk.fab } s) s) s
  match epochSlot s i with
  | some k => epochCommit i k s
  | none => s

/-- An instance's reset is accepted: RESETTING, its threads stop and its rings stop fetching (R436). `after`: 0 it stays RESET,
1 it becomes ABSENT, 2 it is started. -/
def insResetStart (i after : Nat) (s : State) : State :=
  let s := threadsOff i (setIns i .resetting s)
  { s with ctl := { s.ctl with at_ := mins s.ctl.at_ i s.clk.fab, after := mput s.ctl.after i after 0 } }

/-- The coprocessor contexts of an instance are discarded and freed (10 R304). -/
def insCpx (i : Nat) (s : State) : State :=
  { s with cpx := { s.cpx with ctx := s.cpx.ctx.filter (fun p => clusterInst s (p.1 / 64) != some i) } }

/-- Every packet context of an instance is made VOID and released, its waiting packets are dropped, and its items and armed
delay-list entries are discarded (R436, 05 R180). -/
def insDsp (i : Nat) (s : State) : State :=
  let waits := (s.dsp.wait.filter (fun p => p.1 / 4 == i)).map (·.2)
  let s := { s with dsp := { s.dsp with wait := s.dsp.wait.filter (fun p => p.1 / 4 != i) } }
  let s := foldS waits.flatten (fun c s => pktDrop 0x43 c s) s
  let xs := (s.dsp.ctxs.filter (fun p => p.2.inst == i)).map (·.1)
  let s := foldS xs (fun x s => ctxVoid x 0x43 s) s
  let s := foldS xs (fun x s => if (ctxOf s x).st = .done then ctxRelease x s else s) s
  let es := (s.dsp.items.filter (fun p => p.2.inst == i)).map (·.1)
  let s := foldS es (fun e s => itemDiscard e s) s
  { s with dsp := { s.dsp with dl := s.dsp.dl.filter (fun p => p.2.inst != i) } }

/-- Every packet of an instance that is still in the device is dropped with INST_RESET (R436, 05 R188). -/
def insPkts (i : Nat) (s : State) : State :=
  let cs := (s.dsp.pkts.filter (fun p => p.2.inst == i)).map (·.1)
  let keep (l : List Nat) : List Nat := l.filter (fun c => !cs.contains c)
  let keepF (l : List EFrame) : List EFrame := l.filter (fun f => !cs.contains f.cell)
  let s := { s with port := { s.port with
    toParse := s.port.toParse.map (fun (p : Nat × List Nat) => (p.1, keep p.2)),
    toClass := s.port.toClass.map (fun (p : Nat × List Nat) => (p.1, keep p.2)),
    toTm := keep s.port.toTm, toEdit := keepF s.port.toEdit, toGov := keepF s.port.toGov, toTx := keepF s.port.toTx } }
  foldS cs (fun c s => pktDrop 0x43 c s) s

/-- Every held lock of an instance is freed ABANDONED, whoever holds it, and every request for one is withdrawn
(11 R324). -/
def insLocks (i : Nat) (s : State) : State :=
  let lk := s.lck.lk.map (fun (p : Nat × Lock) =>
    if p.2.holder.isSome && lockInst s p.1 == some i then (p.1, { p.2 with holder := none, status := 1 }) else p)
  let w := match s.lck.stwWait with
    | some (n, q) => if lockInst s n == some i then none else some (n, q)
    | none => none
  let at_ := s.lck.atoms.map (fun a => if tinst s a.tid = i && a.tid < 1056 then { a with tid := 5000 } else a)
  { s with lck := { s.lck with lk := lk, stwWait := w, atoms := at_ } }

/-- The tables, associative entries, learn filters and learn queues of an instance are cleared (13 R370). -/
def insTables (i : Nat) (s : State) : State :=
  let s := foldS (s.img.tgeo.filter (fun g => g.inst == i)) (fun g s => tblClear g s) s
  foldS (List.range 4) (fun p s => lrnZero i p (setFilt p ((filtOf s p).filter (fun e => e.inst != i)) s)) s

/-- The keys of an instance are zeroed: MACsec key memory of its ports (03 R104) and its CRY slots (10 R318). -/
def insKeys (i : Nat) (s : State) : State :=
  let own (m : Nat) : Bool := match macPort s m with
    | some r => r.inst == i
    | none => false
  let ks := (s.cpx.keys.filter (fun p => p.1 / 128 == i)).map (·.1)
  { s with
    port := { s.port with sa := s.port.sa.filter (fun p => !own (p.1 / 256)) },
    cpx := { s.cpx with keys := s.cpx.keys.filter (fun p => p.1 / 128 != i),
                        keyGen := ks.foldl (fun g k => mmod g k 0 (· + 1)) s.cpx.keyGen } }

/-- Every epoch slot of an instance is FREE, and no commit waits (R436). -/
def insEpochs (i : Nat) (s : State) : State :=
  let s := foldS (List.range 4) (fun k s => rsetF (epochFree i k s) (epochSts i k) 29 16 0) s
  rsetF s (epochRes i) 30 30 0

/-- Every CUR of an instance's posies returns to 0. -/
def insCur (i : Nat) (s : State) : State := foldS (s.img.posy.filter (fun r => r.inst == i)) (fun r s => curClear r.id s) s

/-- The clearing of an instance reset (R436). -/
def insClear (i : Nat) (s : State) : State :=
  let s := insDsp i (insCpx i (threadsOff i s))
  let s := insPkts i (tmInstReset 0x43 i s)
  let s := insLocks i s
  let s := foldS ((List.range 16).filter (ownsPool s i)) (fun k s => poolInit k s) s
  let s := insCur i (coresZero i (insEpochs i (insKeys i (insTables i s))))
  let s := { s with port := { s.port with noCtx := mdel s.port.noCtx i } }
  match instFn s i with
  | some f => ringsEnd f s
  | none => s

/-- Record LAST_RESET_US and enter RESET (R436). -/
def insResetEnd (i : Nat) (s : State) : State :=
  let t := mget s.ctl.at_ i s.clk.fab
  let s := rsetF s (insSts i) 15 0 (min 65535 (cdiv (s.clk.fab - t) 1000))
  setIns i .reset { s with ctl := { s.ctl with at_ := mdel s.ctl.at_ i } }

/-- Core-local memory of a tagged core: every word with tag BUF is freed through the instance gate and becomes VOID (R438). -/
def cmBufFree (c : Nat) (s : State) : State :=
  let ks := (s.cores.tags.filter (fun p => decide (c * 32768 ≤ p.1) && decide (p.1 < (c + 1) * 32768) && p.2 == tBUF)).map (·.1)
  foldS ks (fun k s =>
    let a := (k - c * 32768) * 4
    let h := w32 (cmRead s c a 4)
    gateFree (tinst s (tidOf c 0)) (tidOf c 0) h (cmSetTag c a tVOID s)) s

/-- The items a Function Abort of a posy reaches: held by the subtree's threads, or queued to it (R438). -/
def abortItems (s : State) (x : Nat) (ts : List Nat) : List (Nat × Item) :=
  s.dsp.items.filter (fun p => posyIn s x p.2.posy || ts.any (fun t => (thr s t).entry == some p.1))

/-- An item is discarded and its packet dropped with FUNC_ABORT; its context becomes VOID (R438, 05 R180). -/
def abortItem (e : Nat) (s : State) : State :=
  match itemOf s e with
  | none => s
  | some it =>
    let s := itemDiscard e s
    match it.ctx with
    | some x => ctxVoid x 0x45 s
    | none => s

/-- A thread of an aborted posy stops (R438): its contexts are discarded, its buffers freed and its locks freed. -/
def abortStrip (tid : Nat) (s : State) : State :=
  let bufs := if plainOf s tid then [] else thrBufs s tid
  let k := clusterOf s (tid / 8)
  let s := foldS (thr s tid).cps (fun (p : Nat × Nat) s => cpxGrant k p.1 (cpxDiscard k p.1 p.2 s)) s
  let s := thrMod tid (fun t => { t with g := [] }) s
  thrStrip tid (foldS bufs (fun h s => gateFree (tinst s tid) tid h s) s)

/-- A supervisor restarts at SUP_ENTRY with its queue; a worker is BOUND at WORKER_ENTRY (R438). -/
def abortRestart (tid : Nat) (s : State) : State :=
  if (thr s tid).st = .off then s
  else if isSup s tid then thrRestart tid (entryOf s tid true) s
  else setThr tid { Thread.init with st := .bound, pc := entryOf s tid false, base := 1 } s

/-- Function Abort of a posy and its subtree (R438): how many packets were dropped, and the state. -/
def abortPosy (x : Nat) (s : State) : Nat × State :=
  let cs := posyCores s 9 x
  let ts := (cs.map (fun c => (List.range 8).map (tidOf c))).flatten
  let its := abortItems s x ts
  let n := (its.filter (fun p => match p.2.ctx with
    | some c => (ctxOf s c).cell.isSome
    | none => p.2.cell.isSome)).length
  let s := foldS ts (fun t s => thrForget t (abortStrip t s)) s
  let s := foldS (its.map (·.1)) (fun e s => abortItem e s) s
  let s := foldS ts (fun t s => abortRestart t s) s
  let s := foldS cs (fun c s => if plainOf s (tidOf c 0) then s else cmBufFree c s) s
  (n, evPosy x { code := 0x66, posy := x, core := 0, thread := 0, pc := 0, info := 0, info2 := 0 } s)

/-- Instance 0 has been created by the boot: it is started, and traffic begins (19 R511, R517). -/
def bootTraffic (s : State) : State :=
  let s := rsetF (insStart 0 s) 0x181000 31 31 1
  hbCheck (rsetF s 0x181000 15 0 (min 65535 ((s.clk.fab - s.boot.t0) / 1000000)))

end Sys2Proof.Machine
end

