-- ==== Sys2Proof/Machine/InsCmd.lean ====
section
/-! DEFINITION. The commands of the INS block, Function Abort, function-level reset and what happens on the PCI Express link
(16_instances.md R423 to R441, 19_reset_boot_mate.md R505). -/

namespace Sys2Proof.Machine

/-- An image load is in progress (20 R532). -/
def loading (s : State) : Bool := decide (s.load.phase ≠ 0)

/-- An instance command is written to INS_CMD (R432): BUSY while another command or an image load is in progress. -/
def insCmd (r : Req) (f : Nat → State → State) (s : State) : State :=
  let q := reqIdx r
  if s.ctl.cur.isSome || loading s then insRes q 4 s else f q s

/-- The command completes later: BUSY of INS_CMDSTS is set. -/
def insBegin (q op i : Nat) (s : State) : State :=
  rset { s with ctl := { s.ctl with cur := some (q, op, i) } } (0x3F81004 + 67108864 * q) (w32 (2 ^ 31))

/-- The command in progress for an instance completes OK. -/
def insFinish (i : Nat) (s : State) : State :=
  match s.ctl.cur with
  | some (q, _, j) => if j = i then insRes q 0 { s with ctl := { s.ctl with cur := none } } else s
  | none => s

/-- INS_CREATE (R432). -/
def insCreate (i q : Nat) (s : State) : State :=
  if insState s i ≠ .absent then insRes q 2 s
  else if (instRec s i).isNone then insRes q 1 s
  else if !insVfOk s i then insRes q 3 s
  else insBegin q 1 i (setIns i .creating s)

/-- INS_START (R432). -/
def insStartCmd (i q : Nat) (s : State) : State :=
  if insState s i ≠ .reset then insRes q 2 s
  else if !insVfOk s i then insRes q 3 s
  else insRes q 0 (insStart i s)

/-- INS_RESET (R432). -/
def insReset (i q : Nat) (s : State) : State :=
  match insState s i with
  | .run => insBegin q 3 i (insResetStart i 0 s)
  | .reset => insRes q 0 s
  | .resetting => insBegin q 3 i s
  | _ => insRes q 2 s

/-- INS_REMOVE (R432). -/
def insRemove (i q : Nat) (s : State) : State :=
  match insState s i with
  | .run => if i = 0 then insRes q 5 s else insBegin q 4 i (insResetStart i 1 s)
  | .reset => if i = 0 then insRes q 5 s else insRes q 0 (setIns i .absent s)
  | _ => insRes q 2 s

/-- CREATE_DONE: the zeroing completes, and the instance enters RESET (R433); instance 0, when the boot creates it, is started
(19 R511). -/
def execCreateDone (i : Fin 32) (s : State) : Result :=
  .next (if insState s i.val = .creating then
    let s := insFinish i.val (setIns i.val .reset (insZero i.val s))
    if i.val = 0 && stwUp s && !rb s 0x181000 31 then bootTraffic s else s
  else s)

/-- INSTANCE_RESET_DONE: the reset sequence completes (R436); what was to follow it follows (R432, R440). -/
def execInstanceResetDone (i : Fin 32) (s : State) : Result :=
  let i := i.val
  .next (if insState s i = .resetting then
    let s := insResetEnd i (insClear i s)
    let k := mget s.ctl.after i 0
    let s := { s with ctl := { s.ctl with after := mdel s.ctl.after i } }
    let s := if k = 1 then setIns i .absent s else if k = 2 && insVfOk s i then insStart i s else s
    let s := rsetF s (insSts i) 28 28 0
    let s := match instFn s i with
      | some f => { s with ctl := { s.ctl with flr := mdel s.ctl.flr f } }
      | none => s
    insFinish i s
  else s)

/-- HOST_EVENT: INS_HEVT sends the data word of INS_HEVTDATA to a posy's supervisor (R435). -/
def hostEvent (r : Req) (inst x : Nat) (s : State) : State :=
  let want := match r with
    | .vf _ => reqInst s r
    | _ => some inst
  let res (k : Nat) (s : State) : State := rset s (reqKey r 0x3F81308) (w32 k)
  match posyRec s x with
  | none => res 1 s
  | some p =>
    if some p.inst != want then res 1 s
    else
      let full := match supOf s x with
        | some u => !(decide ((thr s u).evq.length < 16) && (thr s u).fq.isEmpty)
        | none => false
      let d := (rv s (reqKey r 0x3F81304)).toNat
      let s := evPosy x { code := 0x69, posy := x, core := 0, thread := 0, pc := 0, info := d, info2 := 0 } s
      res (if full then 2 else 0) s

/-- INS_FASTS of a requester. -/
def fasts (r : Req) (busy : Bool) (res kind n : Nat) (s : State) : State :=
  rset s (reqKey r 0x3F81204) (w32 (b2n busy * 2 ^ 31 + res % 8 * 2 ^ 28 + kind % 4 * 2 ^ 26 + min n 1048575))

/-- A Function Abort of KIND `kind` on something of instance `own` is written to INS_FABORT (R438, R439): `f` is its effect, and
answers its COUNT. None for `own`: the target names nothing. -/
def fabort (r : Req) (kind : Nat) (own : Option Nat) (f : State → Nat × State) (s : State) : State :=
  if mhas s.ctl.fab (reqIdx r) then cfgReject 29 0 s
  else
    let mine := match r with
      | .vf _ => own == reqInst s r
      | _ => true
    match own with
    | none => fasts r false 2 kind 0 s
    | some i =>
      if !mine then fasts r false 1 kind 0 s
      else if insState s i ≠ .run then fasts r false 3 kind 0 s
      else
        let (n, s) := f s
        fasts r true 0 kind 0 { s with ctl := { s.ctl with fab := mins s.ctl.fab (reqIdx r) ⟨kind, n⟩ } }

/-- Function Abort of KIND DMA (R438): every ring of a function stops with ABORTED; COUNT is the descriptors abandoned. -/
def abortRings (f : Nat) (s : State) : Nat × State :=
  let l := (List.range 32).filter (ringLive s f)
  (((l.filter (fun k => decide (k < 16))).map (ringLen s f)).sum, foldS l (fun k s => ringStop f k 3 s) s)

/-- Function Abort of KIND CONTEXT (R438, 10 R304): its buffers go through the instance gate. -/
def abortCtx (k u x : Nat) (s : State) : Nat × State :=
  let c := cpxOf s k u x
  let tid := c.holder.getD (tidOf (4 * k) 0)
  let bufs := if plainOf s (tidOf (4 * k) 0) then [] else cpxBufs c
  let s := cpxDiscard k u x s
  let s := foldS bufs (fun h s => gateFree (tinst s tid) tid h s) s
  (b2n c.cmd.isSome, cpxGrant k u s)

/-- Function Abort of KIND LEARNQ (R438): the queue is disabled and its filter entries removed. -/
def abortLearnq (i p : Nat) (s : State) : Nat × State :=
  (lrnLen s i p, setFilt p ((filtOf s p).filter (fun e => e.inst != i)) (rsetF s (lrnCfg i p) 31 31 0))

/-- FABORT_DONE: an abort completes and INS_FASTS reports it (R439). -/
def execFabortDone (r : Req) (s : State) : Result :=
  .next (match mfind s.ctl.fab (reqIdx r) with
    | some x => fasts r false 0 x.kind x.count { s with ctl := { s.ctl with fab := mdel s.ctl.fab (reqIdx r) } }
    | none => s)

/-- A function's PCIe state returns to its reset values (R440, 19 R505). -/
def fnPcieReset (f : Nat) (s : State) : State :=
  { s with hif := { s.hif with msix := mclear s.hif.msix (f * 65536) 65536, aer := mdel s.hif.aer f } }

/-- Reset a running instance, unless it does not run. -/
def insResetIf (i after : Nat) (s : State) : State := if insState s i = .run then insResetStart i after s else s

/-- Instances whose VF ceases to exist when VF Enable and NumVFs change: those that run are reset (R441). -/
def vfChange (en : Bool) (n : Nat) (s : State) : State :=
  let gone := s.img.inst.filter (fun r => r.vf != 0 && vfExists s r.vf && !(en && decide (r.vf ≤ n)))
  let s := rset s 0x3F01004 (w32 (b2n en * 2 ^ 31 + n))
  foldS gone (fun r s => insResetIf r.inst 0 s) s

/-- FLR of a function (R440): its PCIe state resets and its running instance is reset, then started when AUTOSTART is 1; that of
the physical function clears VF Enable and restarts instance 0. -/
def execFlr (f : Fin 33) (s : State) : Result :=
  .next (
    let s := fnPcieReset f.val s
    let s := if f.val = 0 then vfChange false 0 s else s
    match portInst s (64 + f.val) with
    | none => s
    | some i =>
      if insState s i = .run then
        let s := { s with ctl := { s.ctl with flr := mins s.ctl.flr f.val true } }
        let s := rsetF s (insSts i) 28 28 1
        insResetStart i (if f.val = 0 || rb s (0x3F88000 + 4 * i) 0 then 2 else 0) s
      else s)

/-- VF_ENABLE: VF Enable is set, or NumVFs raised (R424). -/
def execVfEnable (n : Fin 33) (s : State) : Result :=
  .next (if rf s 0x3F01004 5 0 ≤ n.val || !rb s 0x3F01004 31 then vfChange true n.val s else s)

/-- VF_DISABLE: VF Enable is cleared, or NumVFs lowered (R441). -/
def execVfDisable (en : Bool) (n : Fin 33) (s : State) : Result :=
  .next (if rb s 0x3F01004 31 && (!en || decide (n.val < rf s 0x3F01004 5 0)) then vfChange en (if en then n.val else 0) s else s)

/-- PCIE_LINK_UP: link training completes (R423): SPEED 1 to 5 and a width of 1, 2, 4, 8 or 16 lanes. HIF leaves the reset a
PCIe reset put it in. -/
def execPcieLinkUp (speed : Fin 5) (lanesLog : Fin 5) (s : State) : Result :=
  .next (
    let s := if s.boot.phase = 3 && decide ((blkGet s 28 0).st = .reset) then
        blkMod s 28 0 (fun b => { b with st := .run })
      else s
    rset s 0x3F01000 (w32 (2 ^ 31 + (speed.val + 1) * 2 ^ 24 + 2 ^ lanesLog.val * 2 ^ 16)))

/-- INS_CREATE: CREATE in INS_CMD (R432, R433). -/
def execInsCreate (r : Req) (i : Fin 32) (s : State) : Result :=
  .next (askedW r 0x3F81000 (2 ^ 28 + i.val) (stwDo (.insCreate r i) (insCmd r (insCreate i.val))) s)

/-- INS_START: START in INS_CMD (R432). -/
def execInsStart (r : Req) (i : Fin 32) (s : State) : Result :=
  .next (askedW r 0x3F81000 (2 * 2 ^ 28 + i.val) (stwDo (.insStart r i) (insCmd r (insStartCmd i.val))) s)

/-- INS_RESET: RESET in INS_CMD (R432, R436). -/
def execInsReset (r : Req) (i : Fin 32) (s : State) : Result :=
  .next (askedW r 0x3F81000 (3 * 2 ^ 28 + i.val) (stwDo (.insReset r i) (insCmd r (insReset i.val))) s)

/-- INS_REMOVE: REMOVE in INS_CMD (R432). -/
def execInsRemove (r : Req) (i : Fin 32) (s : State) : Result :=
  .next (askedW r 0x3F81000 (4 * 2 ^ 28 + i.val) (stwDo (.insRemove r i) (insCmd r (insRemove i.val))) s)

/-- HOST_EVENT: GO in INS_HEVT (R435). -/
def execHostEvent (r : Req) (inst : Fin 32) (x : Fin 256) (s : State) : Result :=
  .next (askedW r 0x3F81300 (inst.val * 2 ^ 8 + x.val) (stwDo (.hostEvent r inst x) (hostEvent r inst.val x.val)) s)

/-- Function Abort of a function's rings (R438). -/
def fabDma (r : Req) (f : Nat) (s : State) : State := fabort r 0 (portInst s (64 + f)) (abortRings f) s

/-- Function Abort of a posy (R438). -/
def fabPosy (r : Req) (x : Nat) (s : State) : State := fabort r 1 ((posyRec s x).map (·.inst)) (abortPosy x) s

/-- Function Abort of a coprocessor context (R438). -/
def fabCtx (r : Req) (k u x : Nat) (s : State) : State :=
  fabort r 2 (if u < 7 && (unitsOf s k).testBit u then clusterInst s k else none) (abortCtx k u x) s

/-- Function Abort of a learn queue (R438). -/
def fabLearnq (r : Req) (i p : Nat) (s : State) : State := fabort r 3 ((instRec s i).map (·.inst)) (abortLearnq i p) s

/-- FABORT_DMA: GO of KIND DMA in INS_FABORT. -/
def execFabortDma (r : Req) (f : Fin 33) (s : State) : Result :=
  .next (askedW r 0x3F81200 f.val (stwDo (.fabortDma r f) (fabDma r f.val)) s)

/-- FABORT_POSY: GO of KIND POSY in INS_FABORT. -/
def execFabortPosy (r : Req) (x : Fin 256) (s : State) : Result :=
  .next (askedW r 0x3F81200 (2 ^ 28 + x.val) (stwDo (.fabortPosy r x) (fabPosy r x.val)) s)

/-- FABORT_CONTEXT: GO of KIND CONTEXT in INS_FABORT. -/
def execFabortContext (r : Req) (k : Fin 32) (u x : Fin 8) (s : State) : Result :=
  .next (askedW r 0x3F81200 (2 * 2 ^ 28 + k.val * 2 ^ 8 + u.val * 2 ^ 4 + x.val) (stwDo (.fabortContext r k u x) (fabCtx r k.val u.val x.val)) s)

/-- FABORT_LEARNQ: GO of KIND LEARNQ in INS_FABORT. -/
def execFabortLearnq (r : Req) (i : Fin 32) (p : Fin 4) (s : State) : Result :=
  .next (askedW r 0x3F81200 (3 * 2 ^ 28 + i.val * 2 ^ 16 + p.val) (stwDo (.fabortLearnq r i p) (fabLearnq r i.val p.val)) s)

/-- A load of a partial image ends (20 R532): BUSY clears and DONE is set, with XFER `xfer`, STATUS `st` and the status word. -/
def loadEnd (xfer st : Nat) (word : Word) (s : State) : State :=
  let s := rset s 0x481010 (w32 (2 ^ 30 + 2 ^ 28 + xfer % 4 * 2 ^ 24 + st % 256))
  let s := rset s 0x481014 word
  let s := { s with load := Load.init }
  if rb s 0x488000 31 then raiseMsix 0 (rf s 0x488000 8 0) s else s

/-- PCIE_RESET: PCIE_PERST_N goes low (19 R505). Every ring ends with VALID 0, every function's PCIe state returns to its reset
values and the link goes down; instances keep running. A load whose image is being copied ends with DMA_ERR (20 R532). -/
def execPcieReset (s : State) : Result :=
  .next (
    let s := foldS (List.range 33) (fun f s => fnPcieReset f (ringsEnd f s)) s
    let s := { s with
      regs := { s.regs with vals := mclear s.regs.vals 0x3F00000 0x80000, shadow := mclear s.regs.shadow 0x3F00000 0x80000 } }
    let s := blkMod { s with hif := { HostIf.init with patQ := s.hif.patQ } } 28 0 (fun _ => BlkCopy.init)
    if s.load.phase = 1 then loadEnd 1 0 0 s else s)

end Sys2Proof.Machine
end

