-- ==== Sys2Proof/Machine/ImgCommit.lean ====
section
/-! DEFINITION. The live rules and the commit of a partial image (02_structure_image.md R85 to R87, 04_parse_classify.md R140), the
mailbox of the steward (20_register_map.md R531 to R533). -/

namespace Sys2Proof.Machine

/-- The positions of a section's records in order: of those it sets (`inl`, an index into them) and of those it deletes. -/
def secOrder (p : PImg) (ty nDel : Nat) : List (Nat × (Nat ⊕ Nat)) :=
  let org := mget p.org ty []
  let n := org.length + nDel
  ((List.range n).foldl (fun (a : List (Nat × (Nat ⊕ Nat)) × Nat) i =>
    match org.findIdx? (· == i) with
    | some k => (a.1 ++ [(i, .inl k)], a.2)
    | none => (a.1 ++ [(i, .inr a.2)], a.2 + 1)) ([], 0)).1

/-- A core hosts a supervisor of a posy other than its own core posy (R86; the core posy goes with the core, DEDUCED). -/
def hostsSup (l : List PosyRec) (r : PosyRec) : Bool := l.any (fun q => q.id != r.id && q.supCore == r.core)

/-- A new POSY record breaks the live rule (R86). -/
def posyRecLive (old new : List PosyRec) (r : PosyRec) : Bool :=
  match old.find? (fun o => o.id == r.id) with
  | some o =>
    o.inst != r.inst || o.isSet != r.isSet || o.core != r.core || o.supCore != r.supCore || o.supThread != r.supThread ||
    (o.parent != r.parent && (r.isSet || o.parent == 255 || r.parent == 255))
  | none =>
    (!r.isSet && old.any (fun o => !o.isSet && o.core == r.core)) ||
    (r.parent == 255 && old.any (fun o => o.inst == r.inst && o.parent == 255)) ||
    (new.filter (fun q => q.id == r.id)).length != 1

/-- A posy that a section removes may be removed: the core posy of a core that hosts no other supervisor (R86). -/
def posyGoneOk (old new : List PosyRec) (o : PosyRec) : Bool :=
  !o.isSet && o.parent != 255 && !hostsSup old o && !new.any (fun q => !q.isSet && q.core == o.core)

/-- Posies of the instances a POSY section names that it does not list. -/
def posyGone (old new : List PosyRec) : List PosyRec :=
  old.filter (fun o => new.any (fun q => q.inst == o.inst) && !new.any (fun q => q.id == o.id))

/-- The live rule of a POSY section (R86). -/
def posyLive (old new : List PosyRec) : Option Nat :=
  match firstIx new (fun i r => atIx (posyRecLive old new r) i) with
  | some i => some i
  | none => if (posyGone old new).all (posyGoneOk old new) then none else some 0xFFFFFF

/-- A cluster's cores are unused or belong to an instance in reset (R86). -/
def clusterFree (s : State) (k : Nat) : Bool :=
  match clusterInst s k with
  | none => true
  | some i => insInReset s i

/-- A node of the hierarchy in force may be re-parented or deleted (R86): a queue with no packets, or a node whose children are all
deleted in the section. -/
def nodeFree (s : State) (gone : List Nat) (l k : Nat) : Bool :=
  if l = 0 then (tmQ s k).pkts.isEmpty
  else (s.img.qhie.filter (fun r => r.level + 1 == l && r.parent == k)).all (fun r => gone.contains (qKey r))

/-- The live rule of a QHIE section (R86). -/
def qhieLive (s : State) (p : PImg) : Option Nat :=
  (secOrder p 7 p.delQ.length).findSome? (fun (e : Nat × (Nat ⊕ Nat)) =>
    let bad := match e.2 with
      | .inl k => match p.img.qhie[k]? with
        | none => false
        | some r => match s.img.qhie.find? (fun o => qKey o == qKey r) with
          | none => false
          | some o => o != r && !(o.inst == r.inst && o.cls == r.cls && o.sched == r.sched && nodeFree s p.delQ r.level r.node)
      | .inr k => match p.delQ[k]? with
        | none => false
        | some x => s.img.qhie.any (fun o => qKey o == x) && !nodeFree s p.delQ (x / 65536) (x % 65536)
    atIx bad e.1)

/-- A TGEO record that a section sets breaks the live rule (R86). -/
def tgeoRecLive (s : State) (r : TgeoRec) : Bool :=
  match s.img.tgeo.find? (fun o => o.table == r.table) with
  | some o => !(insInReset s o.inst && insInReset s r.inst)
  | none => !insInReset s r.inst && s.img.tgeo.any (fun o => o.kind == r.kind && overlap (tgeoSpan o) (tgeoSpan r))

/-- The live rule of a TGEO section. -/
def tgeoLive (s : State) (p : PImg) : Option Nat :=
  (secOrder p 8 p.delT.length).findSome? (fun (e : Nat × (Nat ⊕ Nat)) =>
    let bad := match e.2 with
      | .inl k => match p.img.tgeo[k]? with
        | none => false
        | some r => tgeoRecLive s r
      | .inr k => match p.delT[k]? with
        | none => false
        | some t => s.img.tgeo.any (fun o => o.table == t && !insInReset s o.inst)
    atIx bad e.1)

/-- The instance of a root posy, in the structure that results. -/
def rootInst (s : State) (p : PImg) (x : Nat) : Nat :=
  match (p.img.posy ++ s.img.posy).find? (fun r => r.id == x) with
  | some r => r.inst
  | none => 0

/-- The live rule of a section (R82 step 10, R86): the record that breaks it. -/
def secLive (s : State) (p : PImg) (ty : Nat) : Option Nat :=
  let n := p.img
  match ty with
  | 1 => posyLive s.img.posy n.posy
  | 2 => firstIx n.mode (fun i r => atIx (!insInReset s (rootInst s p r.root)) i)
  | 3 => firstIx n.inst (fun i r => atIx (!insInReset s r.inst) i)
  | 4 => firstIx n.port (fun i r => atIx (!blkIdle s 9 r.mac) i)
  | 5 => firstIx n.copa (fun i r => atIx (!clusterFree s r.1) i)
  | 6 => firstIx n.oflw (fun i r => atIx (!insInReset s r.inst) i)
  | 7 => qhieLive s p
  | 8 => tgeoLive s p
  | 10 => firstIx n.prog (fun i g => atIx ((List.range 32).any (fun k => g.clusters.testBit k && !clusterFree s k)) i)
  | _ => none

/-- Step 10 (R82). -/
def liveCheck (s : State) (p : PImg) : Option LErr :=
  p.types.findSome? (fun ty => (secLive s p ty).map (fun i => ⟨0x0B, ty, i⟩))

/-- Steps 1 to 10 for the staged partial image (R82). -/
def partCheck (s : State) (len : Nat) (b : List Byte) : LErr ⊕ PImg :=
  if 64 ≤ b.length && decide (len < uN b 12 4 + uN (envOf b) 4 4) && (imgHeader 2 b).isNone then .inl ⟨3, 0, 0⟩
  else match imgHead s 2 b with
    | some e => .inl e
    | none =>
      if uN b 20 4 ≠ s.img.serial then .inl ⟨0x0A, 0, 0⟩
      else match imgBody s false b with
        | .inl e => .inl e
        | .inr p => match partCross s p with
          | some e => .inl e
          | none => match liveCheck s p with
            | some e => .inl e
            | none => .inr p

/-- The partial image staged, as its records; it passed its checks. -/
def stagedImg (s : State) : PImg :=
  match imgBody s false s.load.bytes with
  | .inl _ => PImg.init
  | .inr p => p

/-- The cores of a core posy that a section moves: its posy's record changes its parent. -/
def posyMoved (old new : List PosyRec) : List PosyRec :=
  new.filter (fun r => !r.isSet && old.any (fun o => o.id == r.id && o.parent != r.parent))

/-- The core posies a section adds. -/
def posyAdded (old new : List PosyRec) : List PosyRec := new.filter (fun r => !old.any (fun o => o.id == r.id))

/-- The threads of a core that joins a running instance start to wait for work (R86). -/
def coreStart (c : Nat) (s : State) : State :=
  match coreInst s c with
  | none => s
  | some i =>
    if insState s i = .run then
      foldS (List.range 8) (fun t s =>
        let tid := tidOf c t
        setThr tid { Thread.init with
          st := .bound, pc := entryOf s tid (isSup s tid), base := basePrio s tid, runAt := s.clk.fab } s) s
    else s

/-- A POSY section commits (R86, R87): its records are in force, a core that leaves its posy waits for its reshape point, and the
DSP fields of new posies return to their reset values. -/
def posyCommit (new : List PosyRec) (s : State) : State :=
  let old := s.img.posy
  let gone := posyGone old new
  let moved := posyMoved old new
  let added := posyAdded old new
  let leave := (gone ++ moved).filterMap (fun r => old.find? (fun o => o.id == r.id))
  let s := foldS leave (fun o s => curClear o.parent s) s
  let s := { s with
    img := { s.img with posy := old.filter (fun r => !new.any (fun x => x.inst == r.inst)) ++ new ++ gone },
    ctl := { s.ctl with moves := s.ctl.moves ++ moved.map (fun r => (r.core, false)) ++ gone.map (fun r => (r.core, true)) } }
  let s := foldS added (fun r s => curClear r.parent (regsReset (0x2008400 + 4 * r.id) 4 s)) s
  let s := foldS (added.filter (fun r => !r.isSet)) (fun r s => coreStart (physCore s r.core) s) s
  remapAll s

/-- A core is at its posy reshape point (R87): every worker thread waits in GETW and holds no packet context. A thread that is OFF
holds none either (DEDUCED). -/
def reshapePoint (s : State) (c : Nat) : Bool :=
  (workersOf s (physCore s c)).all (fun t =>
    let x := thr s t
    x.st == .off || (x.st == .getw && x.ctx.isNone && x.entry.isNone))

/-- The memory of one core is zeroed with tag VOID (R87). -/
def coreZero (c : Nat) (s : State) : State :=
  { s with cores := { s.cores with
    mem := mclear s.cores.mem (c * 131072) 131072, tags := mclear s.cores.tags (c * 32768) 32768,
    poison := mclear s.cores.poison (c * 32768) 32768 } }

/-- A core reaches its reshape point: it joins its new posy, or its memory is cleared and it is unused (R87). -/
def reshape (c : Nat) (back : Bool) (s : State) : State :=
  let p := physCore s c
  let s := { s with ctl := { s.ctl with moves := s.ctl.moves.filter (fun m => m.1 != c) } }
  if back then
    let s := foldS (List.range 8) (fun t s => setThr (tidOf p t) Thread.init s) s
    let s := coreZero p s
    remapAll { s with img := { s.img with posy := s.img.posy.filter (fun r => r.isSet || r.core != c) } }
  else match s.img.posy.find? (fun r => !r.isSet && r.core == c) with
    | some r => curClear r.parent s
    | none => s

/-- The instruction store of a cluster as the segments give it; bytes no segment holds are 0xFE (R76). -/
def storeLoad (k : Nat) (s : State) : State :=
  let s := { s with cores := { s.cores with
    istore := mclear s.cores.istore (k * 524288) 524288, badLine := mclear s.cores.badLine (k * 8192) 8192 } }
  foldS (s.img.prog.filter (fun g => g.clusters.testBit k)) (fun g s =>
    { s with cores := { s.cores with istore := memWrN s.cores.istore 0xFE (k * 524288 + g.off) g.code } }) s

/-- The clusters named by bits. -/
def clustersIn (n : Nat) : List Nat := (List.range 32).filter (fun k => n.testBit k)

/-- The contexts of a cluster are freed (R86). -/
def clusterCpx (k : Nat) (s : State) : State := { s with cpx := { s.cpx with ctx := mclear s.cpx.ctx (k * 64) 64 } }

/-- The fields a PORT record's commit returns to their reset values: PRT, MSC and ING of the MAC (R86). -/
def portReset (r : PortRec) (s : State) : State :=
  let m := r.mac
  let s := regsReset (0x800000 + 0x10000 * m + 0x100) 0xFF00 s
  let s := regsReset (0xC08000 + 0x400 * m) 0x400 (regsReset (0xC18000 + 0x20 * m) 0x20 (regsReset (0xC18800 + 4 * m) 4 s))
  if r.lport < 64 then
    let n := r.lport
    regsReset (0x1000100 + 4 * n) 4 (regsReset (0x1008000 + 4 * n) 4 (regsReset (0x1008100 + 0x40 * n) 0x40 s))
  else s

/-- A section of a partial image commits (R86). -/
def secCommit (ty : Nat) (s : State) : State :=
  let p := stagedImg s
  let n := p.img
  let r := mergeImg s.img p
  let m := s.img
  match ty with
  | 1 => posyCommit n.posy s
  | 2 => { s with img := { m with mode := r.mode } }
  | 3 => foldS n.inst (fun x s => regsReset (0x3F88000 + 4 * x.inst) 4 s) { s with img := { m with inst := r.inst } }
  | 4 =>
    let long := (List.range 4).map (pipeLong s)
    let s := foldS n.port portReset { s with img := { m with port := r.port } }
    foldS (List.range 4) (fun q s =>
      if long[q]? = some (pipeLong s q) then s
      else { s with rules := { s.rules with frags := mdel s.rules.frags q } }) s
  | 5 => foldS n.copa (fun (x : Nat × Nat) s => clusterCpx x.1 s) { s with img := { m with copa := r.copa } }
  | 6 => { s with img := { m with oflw := r.oflw } }
  | 7 => { s with tm := { s.tm with next := some r.qhie } }
  | 8 =>
    let s := foldS (m.tgeo.filter (fun g => p.delT.contains g.table || n.tgeo.any (fun x => x.table == g.table))) tblClear s
    foldS n.tgeo (fun g s => tblClear g (regsReset (0x3408000 + 4 * g.table) 4 s)) { s with img := { m with tgeo := r.tgeo } }
  | 9 =>
    match (List.range 4).find? (fun k => !mhas s.rules.graphs k) with
    | none => s
    | some k =>
      let s := { s with rules := { s.rules with graphs := mins s.rules.graphs k p.graph, graphNow := k } }
      foldS (s.insSt.filter (fun e => e.2 != .creating)) (fun (e : Nat × InsSt) s => match epochSlot s e.1 with
        | some q => epochCommit e.1 q s
        | none => s) s
  | _ =>
    let ks := clustersIn (n.prog.foldl (fun a g => a ||| g.clusters) 0)
    foldS ks (fun k s => storeLoad k (clusterCpx k s)) { s with img := { m with prog := r.prog } }

/-- Nothing that a section committed still waits: every moved core has passed its reshape point and the hierarchy is in force. -/
def loadSettled (s : State) : Bool := s.ctl.moves.isEmpty && s.tm.next.isNone

/-- Commit the sections that are due, in ascending TYPE, each once those before it have committed (R86); an image with a PGRF
section waits for its slots first (04 R140). -/
def loadGo : Nat → State → State
  | 0, s => s
  | n + 1, s =>
    match s.load.todo with
    | [] => s
    | ty :: t =>
      if loadSettled s && (s.load.kept || !s.load.todo.contains 9) then
        loadGo n (secCommit ty { s with load := { s.load with todo := t, begun := true } })
      else s

/-- A load is refused: its status and status word (R83, R532). -/
def loadFail (e : LErr) (s : State) : State := loadEnd 0 e.st (w32 (e.ty * 2 ^ 24 + e.ix % 2 ^ 24)) s

/-- The loader judges the staged copy of a partial image (R82, 20 R532). -/
def loadJudge (s : State) : State :=
  match partCheck s s.load.len s.load.bytes with
  | .inl e => loadFail e s
  | .inr p => loadGo 12 { s with load := { s.load with phase := 2, todo := p.types, since := s.clk.fab } }

/-- BUSY of STW_MBSTS (20 R531). -/
def mbBusy (s : State) : Bool := rb s 0x481010 31

/-- Bytes STW_MBLEN of STW_MBLEN. -/
def mbLen (s : State) : Nat := rf s 0x481008 22 0

/-- LOAD is written to STW_MBCMD (20 R532): the host's bytes are on their way into the staging area. A load that meets an instance
command in progress ends with IMG_BUSY (R86). -/
def mbLoad (image : List Byte) (s : State) : State :=
  if mbBusy s then cfgReject 8 0 s
  else
    let s := rset s 0x481010 (setBits (rv s 0x481010) 31 31 1)
    if s.ctl.cur.isSome || s.load.phase ≠ 0 then loadFail ⟨0x0C, 0, 0⟩ s
    else { s with load := { Load.init with phase := 1, bytes := image.take (mbLen s), len := mbLen s } }

/-- MB_LOAD: LOAD in STW_MBCMD. `image` is what the host's memory holds at STW_MBADDR (20 R532). -/
def execMbLoad (r : Req) (image : List Byte) (s : State) : Result := .next (askedW r 0x48100C (2 ^ 28) (mbLoad image) s)

/-- The words of STW_MBMSG. -/
def mbMsgWords (s : State) : List Word := (List.range 64).map (fun w => rv s (0x481100 + 4 * w))

/-- MSG is written to STW_MBCMD (20 R531). -/
def mbMsg (s : State) : State :=
  if mbBusy s then cfgReject 8 0 s
  else
    let s := rset s 0x481010 (setBits (rv s 0x481010) 31 31 1)
    emit (.toSteward (wordBytes (mbMsgWords s))) { s with ctl := { s.ctl with msg := true } }

/-- MB_MSG: MSG in STW_MBCMD carries 256 bytes to steward firmware. -/
def execMbMsg (r : Req) (s : State) : Result := .next (askedW r 0x48100C (2 ^ 29) mbMsg s)

/-- A MSG completes (20 R531): DONE is set, with OP MSG, XFER and the firmware's result. -/
def msgEnd (xfer res : Nat) (s : State) : State :=
  let s := rset { s with ctl := { s.ctl with msg := false } } 0x481010 (w32 (2 ^ 30 + 2 ^ 29 + xfer * 2 ^ 24 + res))
  if rb s 0x488000 31 then raiseMsix 0 (rf s 0x488000 8 0) s else s

/-- STEWARD_REPLY: firmware replies to a MSG with its result and 256 bytes (20 R531). -/
def execStewardReply (res : Byte) (reply : List Byte) (s : State) : Result :=
  .next (if s.ctl.msg && stwUp s then
    let s := foldS (List.range 64) (fun w s => rset s (0x481200 + 4 * w) (w32 (leVal (sliceB reply (4 * w) 4)))) s
    msgEnd 0 res.toNat s
  else s)

/-- POSY_RESHAPE_POINT: core `c` reaches its posy reshape point (R87). -/
def execPosyReshapePoint (c : Fin 128) (s : State) : Result :=
  .next (match s.ctl.moves.find? (fun m => m.1 == c.val) with
    | some m => if reshapePoint s c.val then loadGo 12 (reshape c.val m.2 s) else s
    | none => s)

/-- The slots a PGRF load needs are free (04 R140). -/
def pgrfReady (s : State) : Bool :=
  (s.insSt.filter (fun e => e.2 != .creating)).all (fun e => (epochSlot s e.1).isSome && !rb s (epochRes e.1) 30) &&
  (List.range 4).any (fun k => !mhas s.rules.graphs k)

/-- PGRF_COMMIT: every created instance has a FREE slot and no commit pending, and a graph slot is free: the slots are kept, and the
sections commit (04 R140). -/
def execPgrfCommit (s : State) : Result :=
  .next (if s.load.phase = 2 && s.load.todo.contains 9 && !s.load.kept && pgrfReady s then
    loadGo 12 { s with load := { s.load with kept := true } }
  else s)

/-- PGRF_WAIT_TIMEOUT: the slots are not free 100 ms after the checks (04 R140). -/
def execPgrfWaitTimeout (s : State) : Result :=
  .next (if s.load.phase = 2 && s.load.todo.contains 9 && !s.load.kept && decide (s.load.since + 100000000 ≤ s.clk.fab) then
    loadFail ⟨0x0B, 9, 0xFFFFFF⟩ s
  else s)

/-- Every section has committed: the serial and the measurement follow, and the load reports IMG_OK (R86, 17 R452). -/
def loadDone (s : State) : State :=
  let b := s.load.bytes
  let s := rset { s with img := { s.img with serial := uN b 16 4 } } 0x481018 (w32 (uN b 16 4))
  loadEnd 0 0 0 { s with sec := { s.sec with digImg := sha256 (s.sec.digImg ++ sha256 (signedOf b)) } }

/-- LOAD_COMPLETE: the last section has committed (R86). -/
def execLoadComplete (s : State) : Result :=
  .next (if s.load.phase = 2 && stwUp s then
    let s := loadGo 12 s
    if s.load.todo.isEmpty && loadSettled s then loadDone s else s
  else s)

end Sys2Proof.Machine
end

