-- ==== Sys2Proof/Machine/Hss.lean ====
section
/-! DEFINITION. Signing with the attestation key: LMS trees by the pseudorandom method of NIST SP 800-208 (PRESUMED where the spec
names the standard), as 17_secrecy.md R457 uses them. -/

namespace Sys2Proof.Machine

/-- The secret value of one chain of a leaf. -/
def otsSecret (i seed : List Byte) (q k : Nat) : List Byte := sha256 (i ++ beBytes 4 q ++ beBytes 2 k ++ [0xFF] ++ seed)

/-- The LM-OTS public key of a leaf. -/
def otsPub (i seed : List Byte) (q : Nat) : List Byte :=
  sha256 (i ++ beBytes 4 q ++ [0x80, 0x80] ++ ((List.range 34).map (fun k =>
    otsChain (i ++ beBytes 4 q ++ beBytes 2 k) 255 0 (otsSecret i seed q k))).flatten)

/-- Node `r` of an LMS tree of height `h`, `l` levels above the leaves. -/
def lmsNode (i seed : List Byte) (h : Nat) : Nat → Nat → List Byte
  | 0, r => sha256 (i ++ beBytes 4 r ++ [0x82, 0x82] ++ otsPub i seed (r - 2 ^ h))
  | l + 1, r => sha256 (i ++ beBytes 4 r ++ [0x83, 0x83] ++ lmsNode i seed h l (2 * r) ++ lmsNode i seed h l (2 * r + 1))

/-- The 56-byte public key of an LMS tree of type `ty` and height `h`. -/
def lmsPub (ty h : Nat) (i seed : List Byte) : List Byte := beBytes 4 ty ++ beBytes 4 4 ++ i ++ lmsNode i seed h h 1

/-- The LMS signature of a message with leaf `q` and randomizer `c`. -/
def lmsSign (ty h : Nat) (i seed : List Byte) (q : Nat) (c msg : List Byte) : List Byte :=
  let d := (sha256 (i ++ beBytes 4 q ++ [0x81, 0x81] ++ c ++ msg)).map (·.toNat)
  let ck := (d.map (fun b => 255 - b)).sum
  let ds := d ++ [ck / 256, ck % 256]
  let y := (List.range 34).map (fun k =>
    otsChain (i ++ beBytes 4 q ++ beBytes 2 k) ((ds[k]?).getD 0) 0 (otsSecret i seed q k))
  let path := (List.range h).map (fun l => lmsNode i seed h l (((2 ^ h + q) / 2 ^ l) ^^^ 1))
  beBytes 4 q ++ beBytes 4 4 ++ c ++ y.flatten ++ beBytes 4 ty ++ path.flatten

/-- I and SEED of the top tree (R457). -/
def attTop (seed : List Byte) : List Byte × List Byte := ((sha256 (seed ++ [1])).take 16, sha256 (seed ++ [2]))

/-- I and SEED of bottom tree `b` (R457). -/
def attBottom (seed : List Byte) (b : Nat) : List Byte × List Byte :=
  ((sha256 (seed ++ [3] ++ beBytes 4 b)).take 16, sha256 (seed ++ [4] ++ beBytes 4 b))

/-- The 60-byte HSS public key of a seed (R457). -/
def attPub (seed : List Byte) : List Byte := beBytes 4 2 ++ lmsPub 8 20 (attTop seed).1 (attTop seed).2

/-- The public key of bottom tree `b`. -/
def attLow (seed : List Byte) (b : Nat) : List Byte := lmsPub 6 10 (attBottom seed b).1 (attBottom seed b).2

/-- The top-level signature of block `b`, with randomizer `c`. -/
def attTopSign (seed : List Byte) (b : Nat) (c : List Byte) : List Byte :=
  lmsSign 8 20 (attTop seed).1 (attTop seed).2 b c (attLow seed b)

/-- The 3,284-byte HSS signature of a message with leaf `leaf` of block `b` (R457). -/
def attSign (seed : List Byte) (b leaf : Nat) (top c msg : List Byte) : List Byte :=
  beBytes 4 1 ++ top ++ attLow seed b ++ lmsSign 6 10 (attBottom seed b).1 (attBottom seed b).2 leaf c msg

end Sys2Proof.Machine
end

