-- ==== Sys2Proof/Machine/Token.lean ====
section
/-! DEFINITION. Tokens: their format, signers and scope, and the fuse operations they carry (17_secrecy.md R446 to R454). -/

namespace Sys2Proof.Machine

/-- IDENTITY_SEED, 32 bytes. -/
def identSeed (s : State) : List Byte := fuseBytes s 2304

/-- The attestation public key (R457); the spec states none in RETIRED (R448). -/
def devPub (s : State) : List Byte :=
  if lcState s = 3 then wordBytes ((List.range 15).map Config.retiredKey) else attPub (identSeed s)

/-- DEVICE_ID (R457). -/
def deviceId (s : State) : List Byte := sha256 (devPub s)

/-- The fields of a policy whose check code failed are read in their safe form (R445): DBG_DISABLE and SCAN_DISABLE 1, the others 0. -/
def dbgDisable (s : State) : Bool := fieldFails s 5 || fuseBit s 1600
def vendorInField (s : State) : Bool := !fieldFails s 5 && fuseBit s 1601
def scanDisable (s : State) : Bool := fieldFails s 5 || fuseBit s 1602
def tokenSlot (s : State) (k : Nat) : Bool := !fieldFails s 5 && fuseBit s (1604 + k)

/-- The token staged by a requester, 4,288 bytes (R471). -/
def tokBytes (r : Req) (s : State) : List Byte :=
  wordBytes ((List.range 1072).map (fun w => rv s (reqKey r (0x282000 + 4 * w))))

/-- The write-once fields WRITE_FIELD may name: first bit, width and the bit of FUS_FIELDSTS (R453, R470). -/
def tokFields : List (Nat × Nat × Nat) :=
  [(32, 256, 0), (1600, 8, 5), (1616, 1, 6), (1617, 1, 6), (1618, 1, 6), (1619, 5, 6), (1624, 20, 6), (1644, 19, 6),
   (1664, 24, 6), (1688, 24, 6), (1712, 16, 6), (1792, 64, 7), (1856, 64, 8), (1920, 64, 9), (1984, 64, 10), (2048, 5, 11),
   (2053, 1, 12), (2054, 1, 13), (2560, 64, 14)]

/-- The field a WRITE_FIELD token names. -/
def tokField (b : List Byte) : Option (Nat × Nat × Nat) :=
  tokFields.find? (fun f => f.1 == uN b 0x40 2 && f.2.1 == uN b 0x42 2)

/-- The token carries the FUSE purpose. -/
def tokFuse (b : List Byte) : Bool := uN b 6 1 == 2

/-- A field of the token lies outside its legal values (R453). -/
def tokBad (b : List Byte) : Bool :=
  let fuse := tokFuse b
  let op := uN b 0x3E 1
  let arg := uN b 0x3F 1
  uN b 0 4 != 0x54444C49 || uN b 4 2 != 1 || !(uN b 6 1 == 1 || fuse) || !(decide (uN b 7 1 < 4) || uN b 7 1 == 16) ||
  (if fuse then uN b 0x38 4 != 0 || uN b 0x3C 2 != 0 || op == 0 || decide (4 < op)
   else uN b 0x38 4 == 0 || decide (7 < uN b 0x3C 2) || op != 0) ||
  (if op = 1 || op = 2 then decide (3 < arg) else if op = 3 then arg == 0 || decide (3 < arg) else arg != 0) ||
  (op == 4 && (tokField b).isNone) || !zerosB b 0x44 4 || !zerosB b 0x68 24 || uN b 0xBC 4 == 0 || decide (4096 < uN b 0xBC 4)

/-- A signer is accepted for the token's purpose in the present state (R448). -/
def tokSigner (s : State) (fuse : Bool) (sg : Nat) : Bool :=
  let vendor := sg == 16
  let owner := decide (sg < 4) && ownerUsable s sg
  match lcState s, fuse with
  | 0, true => vendor
  | 1, true => vendor || owner
  | 2, true => owner
  | 1, false => vendor || (owner && tokenSlot s sg)
  | 2, false => !dbgDisable s && ((vendor && vendorInField s) || (owner && tokenSlot s sg))
  | _, _ => false

/-- Every bit of a field is 0 (R445). -/
def fuseBlank (s : State) (a n : Nat) : Bool := (List.range n).all (fun k => !fuseBit s (a + k))

/-- The set bits of FUSE_VALUE, below a width, as fuse bits from `a` (R453). -/
def tokValBits (b : List Byte) (a n : Nat) : List Nat :=
  let v := leVal ((b.drop 0x48).take 32)
  ((List.range n).filter (fun k => v.testBit k)).map (· + a)

/-- 256 bits of the entropy source, as fuse bits of IDENTITY_SEED (R447). -/
def seedBits (s : State) : List Nat × State :=
  ((List.range 256).foldl (fun (a : List Nat × State) k =>
    let w := Config.freeWord (s.free + k / 32)
    if w.getLsbD (k % 32) then (a.1 ++ [2304 + k], a.2) else a) ([], { s with free := s.free + 8 }))

/-- What a fuse token is to program (R447, R453): a result code, or the operation. -/
def fuseOf (sts : Nat) (b : List Byte) (s : State) : Except Nat FuseOp × State :=
  let arg := uN b 0x3F 1
  let usable := (List.range 4).filter (ownerUsable s)
  let no (k : Nat) : Except Nat FuseOp × State := (.error k, s)
  match uN b 0x3E 1 with
  | 1 =>
    if fuseBlank s (288 + 256 * arg) 256 then
      (.ok { sts := sts, bits := tokValBits b (288 + 256 * arg) 256, once := some (1 + arg), life := false }, s)
    else no 7
  | 2 =>
    if !fuseBlank s (1312 + 4 * arg) 3 then no 7
    else if usable = [arg] then no 8
    else (.ok { sts := sts, bits := (List.range 3).map (· + (1312 + 4 * arg)), once := none, life := false }, s)
  | 3 =>
    let st := lcState s
    let ok := match arg with
      | 1 => st == 0 && uN b 7 1 == 16 && !fuseBlank s 32 256 && !fuseBlank s 2560 64
      | 2 => st == 1 && !usable.isEmpty
      | _ => decide (st < 3)
    if !ok then no 7
    else
      let bits := (List.range 3).map (· + 3 * (arg - 1))
      if arg = 1 then
        let (sb, s) := seedBits s
        (.ok { sts := sts, bits := bits ++ sb, once := some 15, life := true }, s)
      else (.ok { sts := sts, bits := bits, once := none, life := true }, s)
  | _ =>
    match tokField b with
    | none => no 7
    | some (a, n, k) =>
      if fuseBlank s a n then (.ok { sts := sts, bits := tokValBits b a n, once := some k, life := false }, s) else no 7

/-- Steps 1 to 6 of R454: the result code of the first that fails. -/
def tokJudge (r : Req) (b : List Byte) (s : State) : Option Nat :=
  let mask := uN b 0x38 4
  let pub := (b.drop 0x80).take 60
  let own := match r with
    | .vf _ => match reqInst s r with
      | some i => mask &&& (2 ^ 32 - 1 - 2 ^ i) == 0
      | none => mask == 0
    | _ => true
  let chal := wordBytes ((List.range 4).map (fun w => rv s (reqKey r (0x281010 + 4 * w))))
  if tokBad b then some 1
  else if (b.drop 8).take 32 != deviceId s then some 2
  else if (b.drop 0x28).take 16 != chal then some 3
  else if !tokSigner s (tokFuse b) (uN b 7 1) || sha256 pub != slotHash s (uN b 7 1) then some 4
  else if !hssVerify pub ((b.drop 0xC0).take (uN b 0xBC 4)) (b.take 0x80) then some 5
  else if !own then some 6
  else none

end Sys2Proof.Machine
end

