-- ==== Sys2Proof/Machine/SecCmd.lean ====
section
/-! DEFINITION. The commands of SEC and FUS: challenges, tokens, sessions, internal scan, attestation and anti-rollback
(17_secrecy.md R446, R450, R454 to R460, R470, R471). -/

namespace Sys2Proof.Machine

/-- SEC_STS of a requester. -/
def secSts (r : Req) : Nat := reqKey r 0x281004

/-- FUS_STS of a requester. -/
def fusSts (r : Req) : Nat := reqKey r 0x201504

/-- A SEC command, where none of the requester's is in progress (R471). -/
def secCmd (r : Req) (f : State → State) (s : State) : State := if rb s (secSts r) 31 then cfgReject 4 0 s else f s

/-- Result of a SEC command. -/
def secRes (r : Req) (k : Nat) (s : State) : State := rset s (secSts r) (w32 k)

/-- Four fresh words of the entropy source replace a requester's challenge (R454). -/
def newChal (r : Req) (s : State) : State :=
  foldS (List.range 4) (fun w s => let (x, s) := drawWord s
    rset s (reqKey r (0x281010 + 4 * w)) x) s

/-- NEWCHAL of SEC_CMD. -/
def secNewchal (r : Req) (s : State) : State := secCmd r (fun s => secRes r 0 (newChal r s)) s

/-- A requester's session ends (R455). -/
def sessEnd (r : Req) (s : State) : State := { s with sec := { s.sec with sess := mdel s.sec.sess (reqIdx r) } }

/-- A debug session opens (R455): SEC_DBGHIST keeps that it did. -/
def sessOpen (r : Req) (b : List Byte) (s : State) : State :=
  let rights := uN b 0x3C 2
  let s := { s with sec := { s.sec with sess := mins s.sec.sess (reqIdx r) ⟨rights, uN b 0x38 4⟩ } }
  let s := rsetF s 0x28104C 0 0 1
  if rights.testBit 1 then rsetF s 0x28104C 1 1 1 else s

/-- A fuse programming operation begins (R446). One that finds another in progress fails (log). -/
def fuseBegin (o : FuseOp) (fail : Nat) (s : State) : State :=
  match s.sec.fuse with
  | some _ => rset s o.sts (w32 fail)
  | none => rset { s with sec := { s.sec with fuse := some o } } o.sts (w32 (2 ^ 31))

/-- The staged token is cleared and the challenge replaced: every SUBMIT does so (R454, R471). -/
def tokSpent (r : Req) (s : State) : State := newChal r (regsReset (reqKey r 0x282000) 4288 s)

/-- SUBMIT of SEC_CMD (R454). -/
def secSubmit (r : Req) (s : State) : State :=
  secCmd r (fun s =>
    let b := tokBytes r s
    match tokJudge r b s with
    | some k => tokSpent r (secRes r k s)
    | none =>
      if tokFuse b then
        match fuseOf (secSts r) b s with
        | (.error k, s) => tokSpent r (secRes r k s)
        | (.ok o, s) => tokSpent r (fuseBegin o 7 (sessEnd r s))
      else tokSpent r (secRes r 0 (sessOpen r b s))) s

/-- LOCK of SEC_CMD (R455). -/
def secLockCmd (r : Req) (s : State) : State := secCmd r (fun s => secRes r 0 (sessEnd r s)) s

/-- ATTEST of SEC_CMD (R456): a virtual function asks for SCOPE 1 of its own instance; a RETIRED device denies (R448). -/
def secAttest (r : Req) (scope : Bool) (i : Nat) (s : State) : State :=
  secCmd r (fun s =>
    let ok := match r with
      | .vf _ => scope && reqInst s r == some i
      | _ => true
    if !ok || lcState s = 3 then secRes r 6 s
    else
      let nonce := wordBytes ((List.range 8).map (fun w => rv s (reqKey r (0x281020 + 4 * w))))
      rset { s with sec := { s.sec with attQ := s.sec.attQ ++ [⟨reqIdx r, scope, i, nonce⟩] } } (secSts r) (w32 (2 ^ 31))) s

/-- The highest ARB_VERSION of the running steward firmware and structure image whose ARB_INDEX is `k` (R450); 0 where neither's is. -/
def arbLimit (s : State) (k : Nat) : Nat :=
  max (if s.sec.arbStw.1 = k then s.sec.arbStw.2 else 0) (if s.sec.arbImg.1 = k then s.sec.arbImg.2 else 0)

/-- ARB_ADVANCE of FUS_CMD (R450); a value above 64 is reserved (R470). -/
def arbAdvance (r : Req) (k v : Nat) (s : State) : State :=
  if rb s (fusSts r) 31 || decide (64 < v) then cfgReject 3 0 s
  else
    let cur := arbValue s k
    if arbLimit s k < v then rset s (fusSts r) 1
    else if v ≤ cur then rset s (fusSts r) 0
    else fuseBegin { sts := fusSts r, bits := (List.range (v - cur)).map (· + (1344 + 64 * k + cur)), once := none, life := false } 2 s

/-- Program one fuse bit: none ever returns to 0 (R444). -/
def fuseSet (k : Nat) (s : State) : State := rset s (0x201000 + 4 * (k / 32)) (setBit (rv s (0x201000 + 4 * (k / 32))) (k % 32) true)

/-- A lifecycle transition is pending from now on (R447). -/
def lifePending (s : State) : State := rsetF (rsetF s 0x201400 31 31 1) 0x28104C 2 2 1

/-- A fuse operation is interrupted: which of its bits were programmed is free, and the check code of a write-once field fails
(R445, R446). -/
def fuseBroken (s : State) : State :=
  match s.sec.fuse with
  | none => s
  | some o =>
    let s := { s with sec := { s.sec with fuse := none } }
    let s := foldS o.bits (fun k s => let (x, s) := drawPick 2 s
      if x = 1 then fuseSet k s else s) s
    let s := match o.once with
      | some k => rsetF s 0x201420 k k 1
      | none => s
    if o.life then lifePending s else s

/-- FUSE_FAIL of a status register: 7 in SEC_STS, 2 in FUS_STS. -/
def fuseFail (sts : Nat) : Nat := if blkOf (sts % 67108864) = 4 then 7 else 2

/-- A fuse programming operation completes (R446). -/
def fuseDone (ok : Bool) (s : State) : State :=
  match s.sec.fuse with
  | none => s
  | some o =>
    if ok then
      let s := foldS o.bits fuseSet { s with sec := { s.sec with fuse := none } }
      let s := if o.life then lifePending s else s
      rset s o.sts 0
    else rset (fuseBroken s) o.sts (w32 (fuseFail o.sts))

/-- NEWCHAL: the challenge is replaced by 16 random bytes (R454). -/
def execNewchal (r : Req) (s : State) : Result := .next (askedW r 0x281000 (2 ^ 28) (stwDo (.newchal r) (secNewchal r)) s)

/-- SUBMIT: the staged token is judged (R454). -/
def execSubmit (r : Req) (s : State) : Result := .next (askedW r 0x281000 (2 * 2 ^ 28) (stwDo (.submit r) (secSubmit r)) s)

/-- SEC_LOCK: LOCK ends the requester's session (R455). -/
def execSecLock (r : Req) (s : State) : Result := .next (askedW r 0x281000 (3 * 2 ^ 28) (stwDo (.secLock r) (secLockCmd r)) s)

/-- ATTEST: a report is requested over the requester's nonce (R456). -/
def execAttest (r : Req) (scope : Bool) (inst : Fin 32) (s : State) : Result :=
  .next (askedW r 0x281000 (4 * 2 ^ 28 + b2n scope * 2 ^ 8 + inst.val) (stwDo (.attest r scope inst) (secAttest r scope inst.val)) s)

/-- ARB_ADVANCE: an anti-rollback counter is raised within the running images' versions (R450). -/
def execArbAdvance (r : Req) (k : Fin 4) (v : Fin 128) (s : State) : Result :=
  .next (askedW r 0x201500 (2 ^ 28 + k.val * 2 ^ 24 + v.val) (stwDo (.arbAdvance r k v) (arbAdvance r k.val v.val)) s)

/-- A copy of the LMS state record in MRAM, as bytes (R459). -/
def lmsCopy (s : State) (k : Nat) : List Byte := wordBytes (mget s.mram.lms k [])

/-- A copy is valid: its CRC-32C holds (R459). -/
def lmsValid (b : List Byte) : Bool :=
  b.length == 16 && uN b 12 4 == (crcR crc32cPoly 0xFFFFFFFF (b.take 12)) ^^^ 0xFFFFFFFF

/-- The current copy: the valid one with the higher SEQ (R459). -/
def lmsCur (s : State) : Option Nat :=
  let v (k : Nat) : Bool := lmsValid (lmsCopy s k)
  if v 0 && (!v 1 || decide (uN (lmsCopy s 1) 0 4 ≤ uN (lmsCopy s 0) 0 4)) then some 0
  else if v 1 then some 1 else none

/-- A state record. -/
def lmsRecord (seq next : Nat) : List Word :=
  let b := leBytes 4 seq ++ leBytes 4 next ++ [0, 0, 0, 0]
  [w32 seq, w32 next, 0, w32 ((crcR crc32cPoly 0xFFFFFFFF b) ^^^ 0xFFFFFFFF)]

/-- Fresh random bytes: the randomizer of a signature. -/
def drawBytes32 (s : State) : List Byte × State :=
  ((wordBytes ((List.range 8).map (fun k => Config.freeWord (s.free + k)))), { s with free := s.free + 8 })

/-- Blocks left of the attestation key, and whether a valid copy of the state exists (R460, R471). -/
def attLeft (s : State) : Nat :=
  match lmsCur s with
  | some k => 2 ^ 20 - uN (lmsCopy s k) 4 4
  | none => 0

/-- Steps 1 to 3 of R459: the block in use, reserving one where none is; a result code where that fails. `ok`: the readback is
good. -/
def attReserve (ok : Bool) (s : State) : Except Nat AttBlk × State :=
  match s.sec.attBlk with
  | some a => (.ok a, s)
  | none =>
    match lmsCur s with
    | none => (.error 9, s)
    | some k =>
      let c := lmsCopy s k
      let b := uN c 4 4
      if 2 ^ 20 ≤ b then (.error 9, s)
      else
        let put (ws : List Word) (s : State) : State := { s with mram := { s.mram with lms := mins s.mram.lms (1 - k) ws } }
        if ok then
          let s := put (lmsRecord (uN c 0 4 + 1) (b + 1)) s
          let (r, s) := drawBytes32 s
          (.ok { block := b, leaf := 0, top := attTopSign (identSeed s) b r }, s)
        else
          let ws := (List.range 4).map (fun j => Config.freeWord (s.free + j))
          (.error 10, put ws { s with free := s.free + 4 })

/-- The bytes of an INST record (02 R66). -/
def instBytes (r : InstRec) : List Byte :=
  leBytes 1 r.inst ++ leBytes 1 r.vf ++ leBytes 1 r.root ++ [0] ++ leBytes 2 r.amBanks ++ leBytes 2 r.pools ++ leBytes 4 r.qBase ++
  leBytes 4 r.qCount ++ leBytes 2 r.subBase ++ leBytes 2 r.subCount ++ leBytes 2 r.polBase ++ leBytes 2 r.polCount ++
  leBytes 4 r.dramBase ++ leBytes 4 r.dramSize ++ leBytes 2 r.contexts ++ leBytes 2 r.timers ++ [0, 0, 0, 0]

/-- The bytes of a MODE record (02 R64). -/
def modeBytes (r : ModeRec) : List Byte :=
  leBytes 1 r.root ++ leBytes 1 (b2n r.plain) ++ [0, 0] ++ leBytes 4 r.worker ++ leBytes 4 r.sup

/-- The bytes of an OFLW record (02 R70). -/
def oflwBytes (r : OflwRec) : List Byte := leBytes 1 r.inst ++ [0, 0, 0] ++ leBytes 2 r.base ++ leBytes 2 (r.count - 1)

/-- The bytes of a PROG segment (02 R76). -/
def progBytes (g : ProgSeg) : List Byte :=
  leBytes 4 g.clusters ++ leBytes 4 g.off ++ leBytes 4 g.code.length ++ leBytes 1 g.inst ++ [0, 0, 0] ++ g.code ++
  List.replicate (up8 g.code.length - g.code.length) 0

/-- SCOPE_DIGEST of an instance (R458): its MODE, INST and OFLW records and its PROG segments, the sections in the order an image
has them (DEDUCED). -/
def scopeDigest (s : State) (i : Nat) : List Byte :=
  let m := s.img
  sha256 (((m.mode.filter (fun r => r.root == instF s i (·.root) && (instRec s i).isSome)).map modeBytes).flatten ++
    ((m.inst.filter (fun r => r.inst == i)).map instBytes).flatten ++
    ((m.oflw.filter (fun r => r.inst == i)).map oflwBytes).flatten ++
    ((m.prog.filter (fun g => g.inst == i)).map progBytes).flatten)

/-- Bytes 0x000 to 0x0FF of a report (R458). -/
def attBody (s : State) (q : AttReq) (a : AttBlk) : List Byte :=
  let dev (b : List Byte) (n : Nat) : List Byte := if q.scope then List.replicate n 0 else b
  [0x49, 0x4C, 0x41, 0x52, 1, 0] ++ leBytes 1 (b2n q.scope) ++ leBytes 1 (if q.scope then q.inst else 0) ++ leBytes 2 0x4816 ++
  [0xB0] ++ leBytes 1 (lcState s) ++ dev (leBytes 4 s.img.serial) 4 ++ deviceId s ++ q.nonce ++ s.sec.digStw ++
  dev s.sec.digImg 32 ++ ((List.range 4).map (fun k => leBytes 4 (arbValue s k))).flatten ++
  (if q.scope then scopeDigest s q.inst else List.replicate 32 0) ++ leBytes 4 s.clk.sec ++ leBytes 4 s.clk.ns ++
  leBytes 4 (1024 * a.block + a.leaf) ++ wordBytes [rv s 0x28104C] ++ List.replicate 48 0

/-- A report is written to a requester's SEC_REPORT. -/
def attPut (req : Nat) (b : List Byte) (s : State) : State :=
  foldS (List.range 886) (fun w s => rset s (0x284000 + 4 * w + 67108864 * req) (w32 (uN b (4 * w) 4))) s

/-- ATTEST_DONE: the steward answers the oldest request (R456, R459). `ok`: the readback of the MRAM copy is good. -/
def execAttestDone (ok : Bool) (s : State) : Result :=
  .next (match s.sec.attQ with
    | [] => s
    | q :: t =>
      if !stwUp s then s
      else
        let s := { s with sec := { s.sec with attQ := t } }
        let sts := 0x281004 + 67108864 * q.req
        match attReserve ok s with
        | (.error k, s) => rset s sts (w32 k)
        | (.ok a, s) =>
          let body := attBody s q a
          let (c, s) := drawBytes32 s
          let s := attPut q.req (body ++ leBytes 4 3284 ++ attSign (identSeed s) a.block a.leaf a.top c body) s
          let s := { s with sec := { s.sec with
            attBlk := if a.leaf < 1023 then some { a with leaf := a.leaf + 1 } else none } }
          rset s sts 0)

/-- Internal scan is permitted to a requester: not under SCAN_DISABLE; with no token in BLANK and RETIRED, else under a session with
right SCAN (R448, R453, R455). -/
def scanOk (r : Req) (s : State) : Bool :=
  !scanDisable s && (lcState s == 0 || lcState s == 3 || (match mfind s.sec.sess (reqIdx r) with
    | some x => x.rights.testBit 2
    | none => false))

/-- Entry to internal scan (R455): traffic stops, and MACsec key memory, CRY key slots, steward memory, core-local memory and the
packet buffer are zeroed. The data path and the steward stay out of use until a cold reset. -/
def scanEnter (s : State) : State :=
  let s := rsetF s 0x181000 31 30 0
  { s with
    regs := { s.regs with blk := s.regs.blk.filter (fun p => decide (p.1 < 64 * 9)) },
    cores := { Cores.init with core := s.cores.core, istore := s.cores.istore, seq := s.cores.seq },
    cpx := { s.cpx with keys := [] },
    dsp := Dsp.init, tm := Tm.init,
    port := { s.port with
      sa := [], toParse := [], toClass := [], toTm := [], toEdit := [], toGov := [], toTx := [], occ := [], sharedUsed := 0,
      hostUsed := 0 },
    sec := { s.sec with attQ := [], attBlk := none, sess := [] },
    ctl := { s.ctl with cur := none, held := [], stwQ := [], msg := false },
    load := Load.init, boot := { s.boot with phase := 5 }, hb := { s.hb with run := false, since := none } }

/-- SCAN_ENTRY: entry to internal scan (R455). -/
def execScanEntry (r : Req) (s : State) : Result := .next (if s.boot.phase = 3 && scanOk r s then scanEnter s else s)

/-- TAP_INSTRUCTION: EXTEST, EXTEST_PULSE and EXTEST_TRAIN act only while the device is held in reset; at any other time they act
as BYPASS (R455). -/
def execTapInstruction (ir : Fin 4) (s : State) : Result :=
  .next { s with ctl := { s.ctl with tap := if s.boot.phase = 0 then ir.val else 0 } }

end Sys2Proof.Machine
end

