-- ==== Sys2Proof/Machine/Boot.lean ====
section
/-! DEFINITION. The boot ROM: fuses, the flashes' images, governor limits, DRAM training, and what puts an image in force
(19_reset_boot_mate.md R507 to R512, 17_secrecy.md R445, R451, R467, 15_dram.md R400). -/

namespace Sys2Proof.Machine

/-- A fuse triplet that reads 1 fixes the lifecycle state: the highest (17 R447). -/
def lifeRaw (s : State) : Nat := if triplet s 6 then 3 else if triplet s 3 then 2 else if triplet s 0 then 1 else 0

/-- The fuses are read (17 R445, R447): the lifecycle state is fixed, and a failed check code raises a FUSE record (18 R482). -/
def fusesRead (s : State) : State :=
  let s := rset s 0x201400 (w32 (lifeRaw s * 65536))
  if rf s 0x201420 15 0 = 0 then s else ercReport 0x91 1 2 (rf s 0x201420 15 0) 0 none s

/-- A failed check code of the governor fields, SRCPFX, MACSEC_DIS or CRY_DIS stops the boot before traffic (17 R445). -/
def fusesStop (s : State) : Bool := [6, 7, 8, 9, 10, 12, 13].any (fieldFails s)

/-- The copies of a block (20 R519). -/
def blkCopies (b : Nat) : Nat := if b = 9 then 64 else if b = 13 || b = 14 then 4 else 1

/-- A block with no operations of its own reports IDLE whenever it is out of reset (01 R50). Which blocks these are is DEDUCED: those
that take part in no stage of the packet path and whose commands others carry out. -/
def blkNoOps (b : Nat) : Bool := decide (b < 7) || b == 8 || b == 29

/-- A block copy leaves RESET: RUN, or IDLE when IDLE_REQ is 1 (01 R50). -/
def blkRelease (b c : Nat) (s : State) : State :=
  blkMod s b c (fun k => match k.st with
    | .reset => { k with st := if blkNoOps b || k.idleReq then .idle else .run, byReq := !blkNoOps b && k.idleReq }
    | _ => k)

/-- Every copy of the blocks `l` leaves RESET. -/
def blksRelease (l : List Nat) (s : State) : State :=
  foldS l (fun b s => foldS (List.range (blkCopies b)) (fun c s => blkRelease b c s) s) s

/-- The flashes in the order STRAP_BOOT gives (R507). -/
def bootOrder (strap : Nat) : List Nat :=
  match strap % 4 with
  | 0 => [0, 1]
  | 1 => [1, 0]
  | 2 => [0]
  | _ => [1]

/-- What each flash holds. -/
abbrev Flash := Option (List Byte × List Byte)

/-- The status word of a load failure (02 R553). -/
def errWord (e : LErr) : Word := w32 (e.ty * 2 ^ 24 + e.ix % 2 ^ 24)

/-- RST_BOOTA or RST_BOOTB: TRIED, USED, the status of the image and that of the firmware; and its status word (R517). -/
def bootReport (k : Nat) (used : Bool) (img fw : Nat) (word : Word) (s : State) : State :=
  rset (rset s (0x181004 + 8 * k) (w32 (2 ^ 31 + b2n used * 2 ^ 30 + img % 256 * 256 + fw % 256))) (0x181008 + 8 * k) word

/-- Neither flash has been tried (R517). -/
def bootUntried (s : State) : State :=
  foldS [0, 1] (fun k s => rset (rset s (0x181004 + 8 * k) 0xF1F1) (0x181008 + 8 * k) 0) s

/-- The first checks of a flash (R510): its firmware, then steps 1 to 5 for its image; a RETIRED device looks at the firmware only
(17 R451). Answers whether it passes. -/
def flashJudge (k : Nat) (f : Flash) (s : State) : Bool × State :=
  match f with
  | none => (false, bootReport k false 0xF1 0xF0 0 s)
  | some (fw, img) => match fwHead s fw with
    | some e => (false, bootReport k false 0xF1 e.st 0 s)
    | none =>
      if lcState s = 3 then (true, bootReport k false 0xF1 0 0 s)
      else match imgHead s 1 img with
        | some e => (false, bootReport k false e.st 0 (errWord e) s)
        | none => (true, bootReport k false 0 0 0 s)

/-- A GOV_LIMIT value (17 R467): the smallest non-zero of the fused field and the record's. -/
def minLimit (a b : Nat) : Nat := if a = 0 then b else if b = 0 then a else min a b

/-- The fused governor fields: the values of k 0 to 5, BURST being none (17 R444, R472). -/
def govFused (s : State) : List Nat :=
  if fuseBit s 1616 then
    [fuseNum s 1624 20, fuseNum s 1644 19, fuseNum s 1664 24, fuseNum s 1688 24, 0, fuseNum s 1712 16]
  else [0, 0, 0, 0, 0, 0]

/-- The limits of port `n`, from the fused fields and its GOVC record (17 R467). -/
def govPort (rec : Option (List Byte)) (n : Nat) (s : State) : State :=
  let r := match rec with
    | some b => [uN b 4 4, uN b 8 4, uN b 12 4, uN b 16 4, uN b 0x14 2, uN b 0x16 2]
    | none => [0, 0, 0, 0, 256, 0]
  let v (k : Nat) : Nat := minLimit ((govFused s)[k]?.getD 0) (r[k]?.getD 0)
  let s := foldS (List.range 6) (fun k s => rset s (0x3D02000 + 0x20 * n + 4 * k) (w32 (v k))) s
  let s := rset s (0x3D02018 + 0x20 * n) (w32 (match rec with
    | some b => uN b 2 2
    | none => 0))
  let fs := fuseBit s 1617 || (match rec with
    | some b => uN b 1 1 % 2 == 1
    | none => false)
  rset s (0x3D01000 + 4 * n) (w32 (b2n fs * 2 ^ 29))

/-- A prefix record in GOV_PFX and GOV_PFX_LO (17 R466, R472). -/
def govPfxPut (e : Nat) (b : List Byte) (s : State) : State :=
  let p := (b.drop 2).take 6
  let s := rset s (0x3D04000 + 8 * e) (w32 (2 ^ 31 + uN b 0 1 % 16 * 2 ^ 24 + uN b 1 1 % 64 * 2 ^ 16 + beVal (p.take 2)))
  rset s (0x3D04004 + 8 * e) (w32 (beVal (p.drop 2)))

/-- Step 3 of R451: the governor limits of the fused fields and of the image's GOVC section. -/
def govLoad (g : Option (List (List Byte) × List (List Byte))) (s : State) : State :=
  let (ports, pfx) := g.getD ([], [])
  let s := foldS (List.range 64) (fun n s => govPort (ports.find? (fun b => uN b 0 1 == n)) n s) s
  let s := regsReset 0x3D04000 0x200 s
  let s := foldS (pfx.zipIdx) (fun (x : List Byte × Nat) s => govPfxPut x.2 x.1 s) s
  rset s 0x3D01400 (w32 (b2n (fuseBit s 1616) * 2 ^ 31 + b2n (fuseBit s 1617) * 2 ^ 30 + b2n g.isSome * 2 ^ 29 + pfx.length))

/-- The governor section of an image, as far as its records can be read. -/
def imgGov (s : State) (img : List Byte) : Option (List (List Byte) × List (List Byte)) :=
  match imgBody s true img with
  | .inr p => p.gov
  | .inl _ => none

/-- The boot ROM tries flashes in order (R510): the first that passes is staged; when none does, the boot fails. -/
def bootTry : List (Nat × Flash) → State → State
  | [], s => { s with boot := { s.boot with phase := 4, staged := [] } }
  | (k, f) :: t, s =>
    let (ok, s) := flashJudge k f s
    if ok then
      let s := { s with boot := { s.boot with phase := 2, flash := k, staged := (k, f) :: t } }
      if lcState s = 3 then s else govLoad (f.bind (fun x => imgGov s x.2)) s
    else bootTry t s

/-- The flashes are read (R510, R512). -/
def bootRom (fa fb : Flash) (s : State) : State :=
  bootTry ((bootOrder (rf s 0x181040 1 0)).map (fun k => (k, if k = 0 then fa else fb))) (bootUntried s)

/-- The steward firmware runs (R511, 17 R451 step 5): the measurement is recorded, the blocks leave RESET and STW_UP reads 1. -/
def stewardStart (fw : List Byte) (s : State) : State :=
  let s := { s with
    sec := { s.sec with digStw := sha256 (signedOf fw), arbStw := (uN fw 25 1, uN fw 26 1) },
    boot := { s.boot with phase := 3, staged := [] } }
  blksRelease (List.range 30) (rsetF s 0x181000 30 30 1)

/-- No structure image is in force: IMAGE_DIGEST is 0 (17 R451). -/
def stewardAlone (fw : List Byte) (s : State) : State :=
  let s := { s with sec := { s.sec with digImg := List.replicate 32 0 } }
  stewardStart fw s

/-- The instruction stores of every cluster are loaded. -/
def storesLoad (s : State) : State := foldS (List.range 32) storeLoad s

/-- A verified image is put in force (R511, 01 R47): instance 0 is being created. -/
def imageForce (fw img : List Byte) (p : PImg) (s : State) : State :=
  let s := { s with
    img := p.img,
    rules := { s.rules with graphs := [(0, p.graph)], graphNow := 0 },
    sec := { s.sec with digImg := sha256 (signedOf img), arbImg := (uN img 25 1, uN img 26 1) } }
  let s := rset (storesLoad s) 0x481018 (w32 p.img.serial)
  setIns 0 .creating (stewardStart fw s)

/-- USED of the flash whose images are used (R517). -/
def bootUsed (s : State) : State := rsetF s (0x181004 + 8 * s.boot.flash) 30 30 1

/-- Checks 6 to 9 and the start of the steward (R511): on a failure the other flash is tried. A failed training, a failed fuse field
of R445 and a RETIRED device start the steward with no image. -/
def bootFinish : Nat → State → State
  | 0, s => s
  | n + 1, s =>
    match s.boot.staged with
    | (k, some (fw, img)) :: t =>
      if lcState s = 3 then bootUsed (stewardAlone fw s)
      else match s.boot.trained with
        | none => s
        | some false => bootUsed (stewardAlone fw s)
        | some true =>
          if fusesStop s then bootUsed (stewardAlone fw s)
          else match fullCheck s img with
            | .inl e => bootFinish n (bootTry t (bootReport k false e.st 0 (errWord e) s))
            | .inr p => bootUsed (imageForce fw img p s)
    | _ => s

/-- IMAGE_CHECK: a staged image is judged (02 R82): after a warm reset the images read from the flashes; in a boot the staged image
once DRAM is trained; else the partial image copied by the steward, whose DMA succeeded when `ok`. -/
def execImageCheck (ok : Bool) (fa fb : Option (List Byte × List Byte)) (s : State) : Result :=
  .next (match s.boot.phase with
    | 1 => bootFinish 3 (bootRom fa fb (fusesRead s))
    | 2 => bootFinish 3 s
    | 3 => if s.load.phase = 1 && stwUp s then (if ok then loadJudge s else loadEnd 1 0 0 s) else s
    | _ => s)

/-- The channels populated are channels 0 to N − 1, N being 1, 2, 4 or 8 (15 R400). -/
def popChans (pop : Nat) : Option Nat := [1, 2, 4, 8].find? (fun n => pop == 2 ^ n - 1)

/-- The timing words of a trained channel follow from DMC_TIMBASIC, whose SPEED is 2 after reset (15 R422, DEDUCED). -/
def dmcTimInit (code n : Nat) (s : State) : State :=
  foldS (List.range n) (fun ch s => foldS (List.range 16) (fun k s =>
    rset s (0x3E09000 + 0x100 * ch + 0x40 * (k / 8) + 4 * (k % 8)) (timWord code (if k / 8 = 0 then 2 else 3) (k / 8) (k % 8))) s) s

/-- DRAM_TRAINING_DONE: training ends (15 R400). `pop`: the channels populated; `code`: the configuration; `same`: every subchannel
has it; `bad`: a subchannel whose training failed; `imt` and `mmt`: RAAIMT and RAAMMT of the devices (15 R410). -/
def execDramTrainingDone (pop : Fin 256) (code : Fin 4) (same : Bool) (bad : Option (Fin 16)) (imt mmt : Nat) (s : State) :
    Result :=
  .next (
    if s.boot.phase = 0 || s.boot.trained.isSome then s
    else
      let present := (List.range 8).filter (fun c => pop.val.testBit c)
      let s := foldS present (fun c s => rset s (chSts c) (w32 (2 ^ 31 + code.val))) s
      match popChans pop.val, same, bad with
      | some n, true, none =>
        let s := foldS present (fun c s => rsetF s (chSts c) 30 30 1) s
        let s := rset s 0x3E01040 (w32 (dramMiB n code.val - 32))
        let s := { s with dmc := { s.dmc with imt := imt, mmt := mmt }, boot := { s.boot with trained := some true } }
        dmcTimInit code.val n s
      | _, _, _ =>
        let (x, s) := drawPick 16 s
        let u := match bad with
          | some b => b.val
          | none => x
        ercReport 0x8A 1 3 u 0 none { s with boot := { s.boot with trained := some false } })

/-- The histogram and the lifetime counters as MRAM holds them (18 R490). -/
def thistLoad (s : State) : State :=
  let s := foldS s.mram.thist (fun (p : Nat × Word) s => rset s (0x301000 + 4 * p.1) p.2) s
  foldS s.mram.life (fun (p : Nat × Word) s => rset s (0x301100 + 4 * p.1) p.2) s

/-- MRM_THIST and MRM_LIFE are written to MRAM (18 R490). -/
def thistStore (s : State) : State :=
  { s with mram := { s.mram with
    thist := (List.range 39).map (fun b => (b, rv s (0x301000 + 4 * b))),
    life := (List.range 8).map (fun k => (k, rv s (0x301100 + 4 * k))) } }

/-- POWER_ON_BOOT: PORST_N rises, or a shutdown's reset ends (R507, R511, 17 R451): straps are latched, fuses read, and the flashes
tried; `fa` and `fb` are what they hold. -/
def execPowerOnBoot (straps : Fin 16) (fa fb : Option (List Byte × List Byte)) (s : State) : Result :=
  .next (if s.boot.phase = 0 && !s.boot.hot then
    let s := { s with clk := { s.clk with fab := 0 }, ctl := { s.ctl with tap := 0 }, boot := { s.boot with t0 := 0 } }
    let s := rset s 0x181040 (w32 straps.val)
    let s := cnt 0x301104 (thistLoad s)
    let s := blksRelease [0, 1, 2, 3] (fusesRead s)
    bootRom fa fb s
  else s)

end Sys2Proof.Machine
end

