-- ==== Sys2Proof/Machine/PetalCop.lean ====
section
/-! DEFINITION. Contexts of the shared units as programs use them, the GO commands, their completion, and the fused
instructions (09_petal_packet_ops.md R285 to R287, 10_coprocessors.md R289 to R304, R317, R318). -/

namespace Sys2Proof.Machine

/-- CLK (09 R285, R294). -/
def execClk (th : Thr) (f : Form) (s : State) : Result :=
  .next (petal .clk th f s (fun x => opNone [x.rd])
    (fun x s =>
      let u := x.f.imm.toNat
      match heldCpx x.t u with
      | some c => commitT x (fun t => setG { t with z := true, v := false } x.rd (tvInt (w32 c))) s
      | none =>
        let k := clusterOf s x.core
        let (q, s) := nextSeq s
        let s := thrMod x.tid (fun t => { t with st := .blocked, wait := .clk u, wseq := q, wnext := x.next, wrd := x.rd }) s
        let s := cpxGrant k u s
        .wait (if (thr s x.tid).st = .blocked then cnt (cpxCnt k u 3) s else s)))

/-- CONTEXT_GRANT (R294): a free context goes to the first waiter. -/
def execContextGrant (k : Fin 32) (u : Fin 7) (s : State) : Result := .next (cpxGrant k.val u.val s)

/-- A context with a BUF in a c-register cannot be released by CUL (R301). -/
def execCul (th : Thr) (f : Form) (s : State) : Result :=
  .next (petal .cul th f s (fun _ => opNone [])
    (fun x s =>
      let u := x.f.imm.toNat
      let k := clusterOf s x.core
      match heldCpx x.t u with
      | none => commitT x (fun t => { t with z := false }) s
      | some c =>
        if !x.plain && !(cpxBufs (cpxOf s k u c)).isEmpty then .flt s 2 0
        else commitT x (fun t => { t with z := true }) (cpxGrant k u (cpxRelease k u c false s))))

/-- The unit and the c-register an MTC or MFC names. -/
def mcUnit (x : PCx) : Nat × Nat := (x.f.imm.toNat / 16, x.f.imm.toNat % 16)

/-- MTC (R286, R302): the c-register takes the value with its tag; a BUF moves. -/
def execMtc (th : Thr) (f : Form) (s : State) : Result :=
  .next (petal .mtc th f s (fun x => { reads := [], moves := [x.rs], dsts := [], ok := fun _ => true })
    (fun x s =>
      let (u, n) := mcUnit x
      let k := clusterOf s x.core
      match heldCpx x.t u with
      | none => .flt s 0x0B 0
      | some c =>
        let y := cpxOf s k u c
        if y.sb.contains n then .wait (stallThr x.tid s)
        else if !x.plain && (creg y.c n).tag = tBUF then .flt s 2 0
        else
          let v := tvRead x.plain x.t x.rs
          let fr := y.from?.filter (fun p => p.1 != n)
          let y := { y with c := mput y.c n v TV.void, staged := true,
                            from? := if v.tag = tBUF then fr ++ [(n, x.rs)] else fr }
          commitT x (unBuf x.plain x.rs) (setCpx k u c y s)))

/-- MFC (R286): rd takes the value with its tag; a BUF moves and leaves the c-register VOID. -/
def execMfc (th : Thr) (f : Form) (s : State) : Result :=
  .next (petal .mfc th f s (fun x => opNone [x.rd])
    (fun x s =>
      let (u, n) := mcUnit x
      let k := clusterOf s x.core
      match heldCpx x.t u with
      | none => .flt s 0x0B 0
      | some c =>
        let y := cpxOf s k u c
        let v := creg y.c n
        if y.sb.contains n then .wait (stallThr x.tid s)
        else if !x.plain && !tmOk v.tag then .flt s 2 0
        else
          let y := if !x.plain && v.tag = tBUF then
              { y with c := mput y.c n TV.void TV.void, from? := y.from?.filter (fun p => p.1 != n) } else y
          commitT x (fun t => setG t x.rd (tvOf x.plain v.v v.tag)) (setCpx k u c y s)))

/-- A command as its entry states it (R305): its unit and code, its operand registers with the tags they require (a
register without a stated tag takes INT or VOID), its result registers, and SE. -/
structure CopSpec where
  unit : Nat
  code : Nat
  ints : List Nat
  tags : List (Nat × Nat)
  /-- The register that holds INT or TIME. -/
  time : List Nat
  /-- Registers that hold an EXT field: BUF where the SPACE two registers before is 3, else INT or VOID (R310). -/
  ext  : List Nat
  any  : List Nat
  res  : List Nat
  se   : Bool

/-- The registers a command reads. -/
def CopSpec.ops (c : CopSpec) : List Nat := c.ints ++ c.tags.map (·.1) ++ c.time ++ c.ext ++ c.any

/-- A breach of the entry's operand tags, other than POISON (R296). -/
def CopSpec.breach (c : CopSpec) (r : List (Nat × TV)) : Bool :=
  let tag := fun n => (creg r n).tag
  c.ints.any (fun n => tag n != tINT) || c.tags.any (fun p => tag p.1 != p.2) ||
  c.time.any (fun n => tag n != tINT && tag n != tTIME) ||
  c.ext.any (fun n => if (creg r (n - 2)).v = 3 then tag n != tBUF else tag n != tINT && tag n != tVOID) ||
  c.any.any (fun n => tag n != tINT && tag n != tVOID) || c.res.any (fun n => tag n == tBUF)

/-- GO (R286, R295 to R297): the unit takes its operands at the GO, and the scoreboard bits of c0 and of every result
register are set; the command's effect is that of its completion. -/
def goBody (c : CopSpec) (x : PCx) (s : State) : PRes :=
  let k := clusterOf s x.core
  match heldCpx x.t c.unit with
  | none => .flt s 0x0B 0
  | some n =>
    let y := cpxOf s k c.unit n
    if y.cmd.isSome then .wait (stallThr x.tid s)
    else if !x.plain && c.ops.any (fun r => (creg y.c r).tag == tPOISON) then .flt s 8 0
    else if !x.plain && c.breach y.c then .flt s 2 0
    else
      let y := { y with cmd := some { code := c.code, ops := y.c, tid := x.tid, se := c.se }, sb := 0 :: c.res,
                        staged := false, from? := [] }
      .ok (cnt (cpxCnt k c.unit 0) (setCpx k c.unit n y s))

/-- A GO form. -/
def goCmd (op : POp) (c : CopSpec) (th : Thr) (f : Form) (s : State) : State :=
  petal op th f s (fun _ => opNone []) (goBody c)

/-- A command's entry, its fields in the order of the tables of R305. -/
def cspec (unit code : Nat) (ints : List Nat) (tags : List (Nat × Nat)) (any res : List Nat) (se : Bool) : CopSpec :=
  { unit := unit, code := code, ints := ints, tags := tags, time := [], ext := [], any := any, res := res, se := se }

/-- Registers `a` to `b`. -/
def rng (a b : Nat) : List Nat := (List.range (b + 1 - a)).map (· + a)

/-- KEYREF. -/
def execKeyref (th : Thr) (f : Form) (s : State) : Result :=
  .next (goCmd .keyref (cspec 0 1 [1] [] [] [2] false) th f s)
/-- GCM_ENC. -/
def execGcmEnc (th : Thr) (f : Form) (s : State) : Result :=
  .next (goCmd .gcmEnc (cspec 0 2 [] [(1, tKEY), (2, tBUF)] (rng 3 8) (rng 9 12) true) th f s)
/-- GCM_DEC. -/
def execGcmDec (th : Thr) (f : Form) (s : State) : Result :=
  .next (goCmd .gcmDec (cspec 0 3 [] [(1, tKEY), (2, tBUF)] (rng 3 12) [] true) th f s)
/-- SHA256. -/
def execSha256 (th : Thr) (f : Form) (s : State) : Result :=
  .next (goCmd .sha256 (cspec 0 4 [] [(2, tBUF)] [3, 5] (rng 8 15) false) th f s)
/-- LMS_VERIFY. -/
def execLmsVerify (th : Thr) (f : Form) (s : State) : Result :=
  .next (goCmd .lmsVerify (cspec 0 5 [] [(2, tBUF)] ([3, 4, 5] ++ rng 8 15) [] false) th f s)
/-- LOOKUP. -/
def execLkpLookup (th : Thr) (f : Form) (s : State) : Result :=
  .next (goCmd .lookup (cspec 1 1 [] [(1, tTBL)] (rng 2 9 ++ [12, 13]) [10, 11] false) th f s)
/-- INSERT. -/
def execLkpInsert (th : Thr) (f : Form) (s : State) : Result :=
  .next (goCmd .insertOp (cspec 1 2 [] [(1, tTBL)] (rng 2 11) [] true) th f s)
/-- UPDATE. -/
def execLkpUpdate (th : Thr) (f : Form) (s : State) : Result :=
  .next (goCmd .updateOp (cspec 1 3 [] [(1, tTBL)] (rng 2 11) [] true) th f s)
/-- DELETE. -/
def execLkpDelete (th : Thr) (f : Form) (s : State) : Result :=
  .next (goCmd .deleteOp (cspec 1 4 [] [(1, tTBL)] (rng 2 9) [] true) th f s)
/-- HITREAD. -/
def execLkpHitread (th : Thr) (f : Form) (s : State) : Result :=
  .next (goCmd .hitread (cspec 1 5 [] [(1, tTBL)] (rng 2 9) [12] false) th f s)
/-- SCAN. -/
def execPatScan (th : Thr) (f : Form) (s : State) : Result :=
  .next (goCmd .scan (cspec 2 1 [] [(1, tBUF)] [2, 3, 4] [5] false) th f s)
/-- POLICE. -/
def execPolice (th : Thr) (f : Form) (s : State) : Result :=
  .next (goCmd .police (cspec 3 1 [] [] [1, 2, 3] [4] true) th f s)
/-- COUNT. -/
def execMtrCount (th : Thr) (f : Form) (s : State) : Result :=
  .next (goCmd .countOp (cspec 3 2 [] [] [1, 2] [] true) th f s)
/-- CNTREAD. -/
def execCntread (th : Thr) (f : Form) (s : State) : Result :=
  .next (goCmd .cntread (cspec 3 3 [] [] [1] (rng 4 7) false) th f s)
/-- CNTCLR. -/
def execCntclr (th : Thr) (f : Form) (s : State) : Result :=
  .next (goCmd .cntclr (cspec 3 4 [] [] [1] (rng 4 7) true) th f s)
/-- COPY. -/
def execCopy (th : Thr) (f : Form) (s : State) : Result :=
  .next (goCmd .copy { cspec 4 1 [] [] [1, 2, 4, 5, 7] [9] true with ext := [3, 6] } th f s)
/-- FILL. -/
def execFill (th : Thr) (f : Form) (s : State) : Result :=
  .next (goCmd .fill { cspec 4 2 [] [] [4, 5, 7, 8] [9] true with ext := [6] } th f s)
/-- ARM_CREATE. -/
def execArmCreate (th : Thr) (f : Form) (s : State) : Result :=
  .next (goCmd .armCreate { cspec 5 1 [] [] [1, 4, 5, 6, 7] [10] true with time := [2] } th f s)
/-- ARM_MSG. -/
def execArmMsg (th : Thr) (f : Form) (s : State) : Result :=
  .next (goCmd .armMsg { cspec 5 2 [] [] ([1] ++ rng 4 9) [10] true with time := [2] } th f s)
/-- DISARM. -/
def execDisarm (th : Thr) (f : Form) (s : State) : Result :=
  .next (goCmd .disarm (cspec 5 3 [] [] [11] [] true) th f s)
/-- HMSG. -/
def execHmsg (th : Thr) (f : Form) (s : State) : Result :=
  .next (goCmd .hmsg (cspec 6 1 [] [] (rng 1 9) [] true) th f s)

/-- A command's results reach its context: result registers first, then c0, whose bits clear (R297, R298); in a released
context they are discarded and it is cleared and freed (R301). The holder goes on where it waits in STALL. -/
def copLand (k u n : Nat) (r : CopRes) (s : State) : State :=
  let y := cpxOf s k u n
  if y.releasing then cpxGrant k u (setCpx k u n { CpxCtx.init with dbg := y.dbg } s)
  else
    let c := (r.res ++ [(0, tvInt (w32 (r.det % 256 * 256 + r.st % 256)))]).foldl (fun (c : List (Nat × TV)) (p : Nat × TV) => mput c p.1 p.2 TV.void) y.c
    let s := setCpx k u n { y with c := c, sb := [], cmd := none } s
    match y.holder with
    | some tid => unstall tid s
    | none => s

/-- COMMAND_COMPLETE: the unit carries out the outstanding command of a context and writes its results (R295 to R298,
R305 to R314). `bad`: data it reads has an uncorrectable error; `vd`: what the pattern engine finds in a scan. -/
def execCommandComplete (k : Fin 32) (u : Fin 7) (n : Fin 8) (bad : Bool) (vd : Word) (s : State) : Result :=
  .next (match (cpxOf s k.val u.val n.val).cmd with
    | none => s
    | some c =>
      let x : CopCx := { k := k.val, i := (clusterInst s k.val).getD 0, tid := c.tid, plain := plainOf s c.tid, ops := c.ops,
                         bad := bad, vd := vd }
      let r := copRun u.val c.code x s
      let s := if r.1.st = 5 then cnt (cpxCnt k.val u.val 2) r.2 else r.2
      copLand k.val u.val n.val r.1 s)

/-- COMMAND_CANCEL (R300): a command that had begun and whose GO was squashed is discarded; it writes no register. A
LOOKUP already started still sets the hit bit of the entry it hits. Only commands without side effects are cancelled. -/
def execCommandCancel (k : Fin 32) (u : Fin 7) (n : Fin 8) (code : Fin 16) (started : Bool) (s : State) : Result :=
  .next (
    let y := cpxOf s k.val u.val n.val
    match y.holder with
    | none => s
    | some tid =>
      if y.cmd.isSome then s
      else
        let s := if started && u.val = 1 && code.val = 1 then
            (copRun 1 1 { k := k.val, i := (clusterInst s k.val).getD 0, tid := tid, plain := plainOf s tid, ops := y.c,
                          bad := false, vd := 0 } s).2
          else s
        cnt (cpxCnt k.val u.val 1) s)

/-- Clear a requester's staging bank of keys (R318). -/
def keyClear (r : Req) (s : State) : State := (List.range 8).foldl (fun s w => rset s (reqKey r (0x2C05000 + 4 * w)) 0) s

/-- A key command of a requester (R317, R318): `go` answers its RESULT. -/
def keyCmd (r : Req) (op i slot : Nat) (big : Bool) (go : State → Nat × State) (s : State) : State :=
  askedW r 0x2C05020 (op * 2 ^ 28 + b2n big * 2 ^ 24 + i * 2 ^ 16 + slot) (fun s =>
    let own := match r with
      | .vf _ => reqInst s r == some i
      | _ => true
    let out := if own then go s else (1, s)
    rset (keyClear r out.2) (reqKey r 0x2C05024) (w32 out.1)) s

/-- CRY_KEY_INSTALL (R318). `big`: a 256-bit key. -/
def execCryKeyInstall (r : Req) (i : Fin 32) (slot : Fin 128) (big : Bool) (s : State) : Result :=
  .next (keyCmd r 1 i.val slot.val big (fun s =>
    let a := i.val * 128 + slot.val
    if mhas s.cpx.keys a then (2, s)
    else
      let n := if big then 8 else 4
      let v := (List.range n).foldl (fun acc w => acc + (rv s (reqKey r (0x2C05000 + 4 * w))).toNat * 2 ^ (32 * w)) 0
      (0, { s with cpx := { s.cpx with keys := mins s.cpx.keys a { key := beBytes (4 * n) v } } })) s)

/-- Zero a key slot (R318): handles made for it no longer name a key. -/
def keyZero (a : Nat) (s : State) : State :=
  { s with cpx := { s.cpx with keys := mdel s.cpx.keys a, keyGen := mmod s.cpx.keyGen a 0 (· + 1) } }

/-- CRY_KEY_DELETE (R318). -/
def execCryKeyDelete (r : Req) (i : Fin 32) (slot : Fin 128) (s : State) : Result :=
  .next (keyCmd r 2 i.val slot.val false (fun s =>
    let a := i.val * 128 + slot.val
    if mhas s.cpx.keys a then (0, keyZero a s) else (3, s)) s)

/-- rd := a function of rd, rs and the thread: the fused forms (R289). -/
def fused (op : POp) (rd : Bool) (g : PCx → State → Word) (ft : PCx → Thread → Thread) (th : Thr) (f : Form) (s : State) : State :=
  petal op th f s (fun x => opInt (x.rs :: (if rd then [x.rd] else [])) [x.rd])
    (fun x s => commitT x (fun t => setG (ft x t) x.rd (tvInt (g x s))) s)

/-- The bytes of rs a CRC variant takes, least significant first. -/
def crcBytes (x : PCx) : List Byte := leBytes (2 ^ x.f.imm.toNat) (valR x.t x.rs).toNat

/-- The value of rd. -/
def rdVal (x : PCx) : Nat := (valR x.t x.rd).toNat

/-- CRC32C. -/
def execCrc32c (th : Thr) (f : Form) (s : State) : Result :=
  .next (fused .crc32c true (fun x _ => w32 (crcR crc32cPoly (rdVal x) (crcBytes x))) (fun _ t => t) th f s)
/-- CRC32. -/
def execCrc32 (th : Thr) (f : Form) (s : State) : Result :=
  .next (fused .crc32 true (fun x _ => w32 (crcR crc32Poly (rdVal x) (crcBytes x))) (fun _ t => t) th f s)
/-- CRC16R. -/
def execCrc16r (th : Thr) (f : Form) (s : State) : Result :=
  .next (fused .crc16r true (fun x _ => w32 (crcR crc16rPoly (rdVal x % 65536) (crcBytes x))) (fun _ t => t) th f s)
/-- CRC16N: most significant of the bytes first. -/
def execCrc16n (th : Thr) (f : Form) (s : State) : Result :=
  .next (fused .crc16n true (fun x _ => w32 (crcN (rdVal x % 65536) (crcBytes x).reverse)) (fun _ t => t) th f s)

/-- TPZ_INIT. -/
def execTpzInit (th : Thr) (f : Form) (s : State) : Result :=
  .next (petal .tpzInit th f s (fun x => opNone [x.rd]) (fun x s => commitT x (fun t => setG { t with pos := 0 } x.rd (tvInt 0)) s))

/-- The hash key of an instance: 320 bits, key byte 0 first (R317). -/
def instKey (s : State) (i : Nat) : Nat := (List.range 10).foldl (fun a w => a * 2 ^ 32 + (rv s (0x2C08000 + 0x40 * i + 4 * w)).toNat) 0

/-- The Toeplitz function of the top `n` bits of rs[n-1:0] under a key, from POS (R289). -/
def tpzOf (x : PCx) (n key : Nat) : Word :=
  let v := valR x.t x.rs
  w32 (toepBits key x.t.pos ((List.range n).map (fun j => v.getLsbD (n - 1 - j)))) ^^^ valR x.t x.rd

/-- POS after `n` bits; it saturates at 320. -/
def posAfter (n : Nat) (_ : PCx) (t : Thread) : Thread := { t with pos := min 320 (t.pos + n) }

/-- TPZ. -/
def execTpz (th : Thr) (f : Form) (s : State) : Result :=
  .next (fused .tpz true (fun x s => tpzOf x 32 (instKey s (tinst s x.tid))) (posAfter 32) th f s)
/-- TPZ_SYM. -/
def execTpzSym (th : Thr) (f : Form) (s : State) : Result :=
  .next (fused .tpzSym true (fun x _ => tpzOf x 32 symKey) (posAfter 32) th f s)
/-- TPZ_H. -/
def execTpzH (th : Thr) (f : Form) (s : State) : Result :=
  .next (fused .tpzH true (fun x s => tpzOf x 16 (instKey s (tinst s x.tid))) (posAfter 16) th f s)
/-- TPZ_H_SYM. -/
def execTpzHSym (th : Thr) (f : Form) (s : State) : Result :=
  .next (fused .tpzHSym true (fun x _ => tpzOf x 16 symKey) (posAfter 16) th f s)

/-- The 16-bit ones'-complement sum with end-around carry (R289). -/
def add16oc (a b : Nat) : Nat := if 65536 ≤ a + b then a + b - 65535 else a + b

/-- ADD16. -/
def execAdd16 (th : Thr) (f : Form) (s : State) : Result :=
  .next (fused .add16 true (fun x _ => w32 (add16oc (rdVal x % 65536) (bits (valR x.t x.rs) 15 0))) (fun _ t => t) th f s)
/-- ADD32. -/
def execAdd32 (th : Thr) (f : Form) (s : State) : Result :=
  .next (fused .add32 true (fun x _ =>
    w32 (add16oc (add16oc (rdVal x % 65536) (bits (valR x.t x.rs) 31 16)) (bits (valR x.t x.rs) 15 0))) (fun _ t => t) th f s)
/-- SUB16. -/
def execSub16 (th : Thr) (f : Form) (s : State) : Result :=
  .next (fused .sub16 true (fun x _ => w32 (add16oc (rdVal x % 65536) (65535 - bits (valR x.t x.rs) 15 0))) (fun _ t => t) th f s)

/-- FIN: Z is set when the result is 0. -/
def execFin (th : Thr) (f : Form) (s : State) : Result :=
  .next (petal .finOp th f s (fun x => opInt [x.rd] [x.rd])
    (fun x s =>
      let v := 65535 - rdVal x % 65536
      commitT x (fun t => setG { t with z := decide (v = 0) } x.rd (tvInt (w32 v))) s))

/-- BFSET. -/
def execBfset (th : Thr) (f : Form) (s : State) : Result :=
  .next (petal .bfset th f s (fun x => opInt [x.rs] [])
    (fun x s =>
      let v := valR x.t x.rs
      if bits v 31 10 != 0 then .flt s 0x0B 0
      else commitT x (fun t => { t with bfp := bits v 4 0, bfw := bits v 9 5 + 1 }) s))

/-- The field P, W of rs. -/
def bfOf (x : PCx) : Nat := (valR x.t x.rs).toNat / 2 ^ x.t.bfp % 2 ^ x.t.bfw

/-- EXTU. -/
def execExtu (th : Thr) (f : Form) (s : State) : Result :=
  .next (fused .extu false (fun x _ => w32 (bfOf x)) (fun _ t => t) th f s)
/-- EXTS. -/
def execExts (th : Thr) (f : Form) (s : State) : Result :=
  .next (fused .exts false (fun x _ => w32i (sgn x.t.bfw (bfOf x))) (fun _ t => t) th f s)
/-- INS. -/
def execIns (th : Thr) (f : Form) (s : State) : Result :=
  .next (fused .ins true (fun x _ =>
    let m := w32 ((2 ^ x.t.bfw - 1) * 2 ^ x.t.bfp)
    (valR x.t x.rd &&& ~~~m) ||| ((valR x.t x.rs <<< x.t.bfp) &&& m)) (fun _ t => t) th f s)

end Sys2Proof.Machine
end

