-- ==== Sys2Proof/Machine/Resets.lean ====
section
/-! DEFINITION. The resets of the device, heartbeats, temperature and the loss of a PLL (19_reset_boot_mate.md R505, R506, R512 to
R518, 20_register_map.md R529, R530, 21 R543, 01 R37). -/

namespace Sys2Proof.Machine

/-- CAUSE of RST_STS (R517). -/
def setCause (k : Nat) (s : State) : State := rsetF s 0x181000 19 16 k

/-- The registers a reset keeps, by a test on the offset. -/
def regsKeep (p : Nat → Bool) (s : State) : List (Nat × Word) := s.regs.vals.filter (fun e => p (e.1 % 67108864))

/-- A cold reset (R505): MRAM, fuses and the cause latch are kept, DRAM contents are lost. A fuse operation in progress is
interrupted, since PORST_N does not wait (R506). -/
def coldDo (cause : Nat) (s0 : State) : State :=
  let s := fuseBroken s0
  let keep := regsKeep (fun o => (decide (0x201000 ≤ o) && decide (o < 0x201400)) || o == 0x201420) s
  setCause cause { State.reset with
    regs := { RegFile.init with vals := keep }, mram := { s.mram with logPend := [] }, outs := s.outs, free := s.free,
    pending := s.pending, boot := { Boot.init with hot := s.boot.hot, hot1 := s.boot.hot1 } }

/-- COLD_RESET: PORST_N goes low (R505). -/
def execColdReset (s : State) : Result := .next (coldDo 0 { s with boot := { s.boot with hot := false } })

/-- RAIL_LOSS: a rail's average falls below its minimum (21 R543): a cold reset; the loss of VDD_AON clears the cause latch (R517). -/
def execRailLoss (aon : Bool) (s : State) : Result := .next (coldDo (if aon then 0 else 2) s)

/-- The last ring position the journal wrote. -/
def ringLast (s : State) : Nat := ((rv s 0x401004).toNat + (rv s 0x401008).toNat * 2 ^ 32 + ringWords s - 1) % ringWords s

/-- A warm reset in RUN or POST writes a RESET entry (18 R498): its REASON, data word and position, for which the spec names no
value, are free. -/
def jnlReset (s : State) : State :=
  if jnlOn s then
    let (a, s) := drawWord s
    let (b, s) := drawWord s
    let (c, s) := drawWord s
    trigWrite (trigWords (!s.jnl.staged.isEmpty) 4 (bits a 7 0) b c.toNat (ringLast s) s) s
  else s

/-- The writes the DRAM controller holds are performed before self-refresh (R512). -/
def dramFlush (s : State) : State :=
  foldS (List.range 16) (fun sc s =>
    let d := dsub s sc
    if scFailed s sc then s
    else foldS (d.wq ++ d.q ++ d.hold ++ d.bp) (fun r s => match r.data with
      | some bs => dramWr r.addr bs s
      | none => s) s) s

/-- The registers a warm reset keeps: those of GLB, CLK, RST, FUS and MRM, SEC_DBGHIST, and the training results (R505, R517, R421). -/
def warmKeeps (o : Nat) : Bool :=
  (decide (o < 0x280000) && o != 0x1028) || (decide (0x300000 ≤ o) && decide (o < 0x380000)) || o == 0x28104C ||
  (decide (0x3E01000 ≤ o) && decide (o ≤ 0x3E01040))

/-- A warm reset is taken (R505, R512). -/
def warmDo (cause : Nat) (s : State) : State :=
  let s := dramFlush (jnlReset s)
  let s := thistStore (cnt 0x301108 s)
  let keep := regsKeep warmKeeps s
  let blk := s.regs.blk.filter (fun p => decide (p.1 / 64 < 4) || p.1 / 64 == 5)
  let n := chCount s
  let code := dramCode s
  let trained := s.boot.trained
  let s' : State := { State.reset with
    regs := { RegFile.init with vals := keep, blk := blk }, mram := s.mram, outs := s.outs, free := s.free, pending := s.pending,
    clk := { Clocks.init with fab := s.clk.fab }, dram := s.dram, hb := { s.hb with run := false, since := none },
    dmc := { Dmc.init with bad := s.dmc.bad, imt := s.dmc.imt, mmt := s.dmc.mmt },
    boot := { s.boot with phase := 1, staged := [], t0 := s.clk.fab, wait := none } }
  let s' := foldS (List.range 8) (fun c s => if rb s (chSts c) 31 then rsetF (rsetF s (chSts c) 25 24 0) (chSts c) 20 20 0 else s) s'
  let s' := if trained = some true then dmcTimInit code n s' else s'
  setCause cause (rsetF s' 0x181000 31 30 0)

/-- A cause of a warm reset arises (R506): it waits for a fuse operation; during a warm reset, past its row at t0 + 100 µs, it is
recorded and ignored; a device held in cold reset, or in internal scan, takes none. -/
def warmTake (cause : Nat) (s : State) : State :=
  match s.boot.phase with
  | 0 => s
  | 1 => setCause cause s
  | 5 => s
  | _ => if s.sec.fuse.isSome then { s with boot := { s.boot with wait := some cause } } else warmDo cause s

/-- WARM_RESET: WRST_N goes low (R512). -/
def execWarmReset (s : State) : Result := .next (warmTake 3 s)

/-- RST_WARM: WARM in RST_CMD (R512, R517). -/
def execRstWarm (r : Req) (s : State) : Result := .next (askedW r 0x181100 (2 ^ 28) (warmTake 4) s)

/-- PLL_LOSS_OF_LOCK: domain `d` of R39 loses lock (R518): a CLOCK record and, for any domain but AON, a warm reset (R505). -/
def execPllLossOfLock (d : Fin 10) (s : State) : Result :=
  .next (if s.boot.phase = 0 then s
  else
    let s := rsetF s 0x101004 d.val d.val 1
    let s := ercReport 0x90 1 3 d.val 0 none s
    if d.val = 7 then s else warmTake 5 s)

/-- The load in progress when the steward resets (20 R533): one of which nothing has begun to commit is abandoned. -/
def loadBreak (s : State) : State :=
  if s.load.phase ≠ 0 && !s.load.begun then { s with load := { Load.init with phase := 3 } } else s

/-- A CREATE in progress is interrupted by a steward reset: the instance is ABSENT again (16 R432). A RESET under way goes on. -/
def createBreak (s : State) : State :=
  let s := match s.ctl.cur with
    | some (q, 1, i) => insRes q 6 (setIns i .absent { s with ctl := { s.ctl with cur := none } })
    | _ => s
  { s with insSt := s.insSt.filter (fun p => p.2 != .creating) }

/-- A requester whose attestation the steward had accepted has none outstanding any more (R505). -/
def attBreak (s : State) : State :=
  let s := foldS s.sec.attQ (fun q s => rset s (0x281004 + 67108864 * q.req) 0) s
  { s with sec := { s.sec with attQ := [], attBlk := none, sess := [] } }

/-- The steward resets (R505, R513): its memory is lost, sessions end, its locks are freed ABANDONED and its waiting ACQUIRE is
withdrawn (11 R324, R328), and the INS block restarts. -/
def stewardDo (cause : Nat) (s : State) : State :=
  let s := setCause cause (rsetF s 0x181000 30 30 0)
  let s := attBreak (createBreak (loadBreak s))
  let s := if s.ctl.msg then msgEnd 2 0 s else s
  let s := { s with lck := { s.lck with stwWait := none } }
  let s := rset s (reqKey .steward 0x3001808) 0
  let s := lockAbandon (locksHeld s stwId) s
  let s := blkMod s 29 0 (fun _ => { BlkCopy.init with st := .idle })
  regsReset 0x3F88000 0x1000 s

/-- A cause of a steward reset arises: it waits for a fuse operation, and is absorbed by a warm or cold reset in progress (R506). -/
def stewardTake (cause : Nat) (s : State) : State :=
  if s.boot.phase = 3 && stwUp s then
    if s.sec.fuse.isSome then { s with boot := { s.boot with wait := some (s.boot.wait.getD cause) } } else stewardDo cause s
  else s

/-- RST_STEWARD: STEWARD in RST_CMD (R513, R517). -/
def execRstSteward (r : Req) (s : State) : Result := .next (askedW r 0x181100 (2 ^ 29) (stewardTake 7) s)

/-- LOCKSTEP_MISMATCH: the steward's cores disagree (01 R37): a record, whose PC is a free value, and a steward reset. -/
def execLockstepMismatch (s : State) : Result :=
  .next (if s.boot.phase = 3 && stwUp s then
    let (pc, s) := drawWord s
    stewardTake 8 (ercReport 0x86 1 2 0 pc.toNat none s)
  else s)

/-- STEWARD_RESET: an uncorrectable steward-memory read stops the pair (R505, R513). -/
def execStewardReset (s : State) : Result := .next (stewardTake 9 s)

/-- A reset that waited for a fuse operation is taken (R506): cause 7, 8 or 9 is the steward's. -/
def waitTake (s : State) : State :=
  match s.boot.wait with
  | none => s
  | some c =>
    let s := { s with boot := { s.boot with wait := none } }
    if 7 ≤ c then stewardTake c s else warmTake c s

/-- FUSE_PROGRAM_DONE: a fuse programming operation completes, or fails, and a reset that waited for it is taken (17 R446, R506). -/
def execFuseProgramDone (ok : Bool) (s : State) : Result :=
  .next (match s.sec.fuse with
    | some _ => waitTake (fuseDone ok s)
    | none => s)

/-- A command held while the steward was down executes (R513). -/
def stwRun (i : Instr) (s : State) : State :=
  match i with
  | .lckAcquire _ => stwLockRun stwAcquire s
  | .lckRelease _ => stwLockRun stwRelease s
  | .lckForce _ => stwLockRun stwForce s
  | .insCreate r i => insCmd r (insCreate i.val) s
  | .insStart r i => insCmd r (insStartCmd i.val) s
  | .insReset r i => insCmd r (insReset i.val) s
  | .insRemove r i => insCmd r (insRemove i.val) s
  | .hostEvent r i x => hostEvent r i.val x.val s
  | .fabortDma r f => fabDma r f.val s
  | .fabortPosy r x => fabPosy r x.val s
  | .fabortContext r k u x => fabCtx r k.val u.val x.val s
  | .fabortLearnq r i p => fabLearnq r i.val p.val s
  | .newchal r => secNewchal r s
  | .submit r => secSubmit r s
  | .secLock r => secLockCmd r s
  | .attest r sc i => secAttest r sc i.val s
  | .arbAdvance r k v => arbAdvance r k.val v.val s
  | _ => s

/-- The records queued for the steward are served, and the commands held for it execute, in order of arrival (R513). -/
def stewardServe (s : State) : State :=
  let q := s.ctl.stwQ
  let h := s.ctl.held
  let s := { s with ctl := { s.ctl with stwQ := [], held := [] } }
  foldS h stwRun (foldS q stwServe s)

/-- What becomes of a load when the steward is up again (20 R533); none: a warm reset is due. -/
def loadResume (s : State) : Option State :=
  match s.load.phase with
  | 3 => some (loadEnd 2 0 0 s)
  | 2 => match imgHead s 2 s.load.bytes with
    | some _ => none
    | none => some (loadGo 12 s)
  | _ => some s

/-- The steward is up again: what it holds is served, and a boot that had not reached traffic goes on to create instance 0 (R511). -/
def stewardUp (fw : List Byte) (s : State) : State :=
  let s := { s with sec := { s.sec with digStw := sha256 (signedOf fw), arbStw := (uN fw 25 1, uN fw 26 1) } }
  let s := rsetF s 0x181000 30 30 1
  match loadResume s with
  | none => warmTake 6 s
  | some s =>
    let s := if s.img.valid && !rb s 0x181000 31 && decide (insState s 0 = .absent) then setIns 0 .creating s else s
    stewardServe s

/-- STEWARD_RELOAD_DONE: the boot ROM has reloaded the firmware from the flash that booted; `fw` is what it read, none where the flash
does not answer. A failed verification takes a warm reset (R513). -/
def execStewardReloadDone (fw : Option (List Byte)) (s : State) : Result :=
  .next (if s.boot.phase = 3 && !stwUp s then
    match fw with
    | none => warmTake 6 s
    | some b => match fwHead s b with
      | some _ => warmTake 6 s
      | none => stewardUp b s
  else s)

/-- HB_KICK: KICK in RST_HBKICK, from the steward only (R515, R517). -/
def execHbKick (r : Req) (s : State) : Result :=
  .next (asked r 0x181104 (fun s => hbCheck { s with hb := { s.hb with kick := some s.clk.fab } }) s)

/-- KICK_TIMEOUT: no KICK within KICK_MS: the heartbeat outputs stop (R515). -/
def execKickTimeout (s : State) : Result := .next (if healthy s then s else hbStop s)

/-- HB_RESUME: 1 ms after health returned the outputs toggle again (R515). -/
def execHbResume (s : State) : Result :=
  .next (match s.hb.since with
    | some t => if healthy s && decide (t + 1000000 ≤ s.clk.fab) then { s with hb := { s.hb with run := true } } else s
    | none => s)

/-- STRAP_MATE (R507). -/
def strapMate (s : State) : Bool := rb s 0x181040 3

/-- MATE_HB_EDGE: an edge on MATE_HB_IN; the 16th in a row within 600 ns of the one before sets MATE_ALIVE (R516). -/
def execMateHbEdge (s : State) : Result :=
  .next (if strapMate s && decide (s.boot.phase ≠ 0) then
    let near := match s.hb.edgeAt with
      | some t => decide (s.clk.fab ≤ t + 600)
      | none => false
    let n := if near then min 16 (s.hb.edges + 1) else 0
    let s := { s with hb := { s.hb with edgeAt := some s.clk.fab, edges := n } }
    if n = 16 then rsetF s 0x181000 28 28 1 else s
  else s)

/-- MATE_LOST: no edge on MATE_HB_IN for 4 µs (R516). -/
def execMateLost (s : State) : Result :=
  .next (if strapMate s && decide (s.boot.phase ≠ 0) && decide (s.hb.edgeAt.getD s.boot.t0 + 4000 ≤ s.clk.fab) then
    let s := rsetF (rsetF s 0x181000 27 27 1) 0x181000 28 28 0
    { s with hb := { s.hb with edges := 0 } }
  else s)

/-- The hottest of the readings and its sensor, the lowest among equals (20 R529). -/
def hottest (l : List (BitVec 16)) : Nat × Int :=
  l.zipIdx.foldl (fun (a : Nat × Int) (x : BitVec 16 × Nat) => if a.2 < x.1.toInt then (x.2, x.1.toInt) else a)
    (0, match l with
      | t :: _ => t.toInt
      | [] => 0)

/-- The readings in GLB_TEMP and GLB_TEMPMAX (20 R526, R529). -/
def tempPut (l : List (BitVec 16)) (s : State) : State :=
  let s := foldS (l.take 16).zipIdx (fun (x : BitVec 16 × Nat) s => rset s (0x1100 + 4 * x.2) (w32 (2 ^ 31 + x.1.toNat))) s
  let h := hottest (l.take 16)
  rset s 0x1140 (w32 (h.1 * 2 ^ 24 + (h.2 % 65536).toNat))

/-- WARN (20 R530). -/
def tempWarn (k : Nat) (t : Int) (s : State) : State :=
  let w : Int := rf s 0x8000 15 8 * 16
  let y : Int := rf s 0x8000 3 0 * 16
  if w ≤ t then
    if rb s 0x1144 30 then s else ercReport 0x8F 1 1 k (t / 16).toNat none (rsetF s 0x1144 30 30 1)
  else if t < w - y then rsetF s 0x1144 30 30 0 else s

/-- The throttle (20 R530). -/
def tempThrottle (t : Int) (s : State) : State :=
  let w : Int := rf s 0x8000 23 16 * 16
  let y : Int := rf s 0x8000 3 0 * 16
  if rb s 0x8000 31 && decide (w ≤ t) then
    if rb s 0x1144 31 then s else cnt 0x1148 (rsetF s 0x1144 31 31 1)
  else if t < w - y then rsetF s 0x1144 31 31 0 else s

/-- THERMAL_SAMPLE: the sensors are sampled (20 R529, R530): at 155 °C twice in a row the device takes a cold reset, which holds it
until a sample falls below 140 °C. -/
def execThermalSample (temps : List (BitVec 16)) (s : State) : Result :=
  .next (
    let h := hottest (temps.take 16)
    let s := tempPut temps s
    let s := if s.boot.phase = 0 then s else tempThrottle h.2 (tempWarn h.1 h.2 s)
    let ovr := decide (155 * 16 ≤ h.2)
    if ovr && s.boot.hot1 && decide (s.boot.phase ≠ 0) then
      let s := ercReport 0x8F 2 3 h.1 (h.2 / 16).toNat none s
      coldDo 1 { s with boot := { s.boot with hot := true, hot1 := true } }
    else
      { s with boot := { s.boot with hot := s.boot.hot && decide (140 * 16 ≤ h.2), hot1 := ovr } })

end Sys2Proof.Machine
end

