-- ==== Sys2Proof/Machine/TblCmd.lean ====
section
/-! DEFINITION. The TBL commands, aging, the learn filter's expiry and the pop of a learn queue
(13_tables_learning.md R356 to R372). -/

namespace Sys2Proof.Machine

/-- The requester may act for instance `i`: the physical function and the steward for every one, a virtual function for
its own (16 R443, 20 R524). -/
def reqFor (s : State) (r : Req) (i : Nat) : Bool :=
  match r with
  | .pf => true
  | .steward => true
  | .vf _ => reqInst s r == some i
  | .jtag => false

/-- The requester's staged words at `off`. -/
def reqWords (s : State) (r : Req) (off n : Nat) : List Word := (List.range n).map (fun k => rv s (reqKey r (off + 4 * k)))

/-- The staged key of a TBL command. -/
def tblStaged (s : State) (r : Req) (g : TgeoRec) : Option Nat := tblKey g (reqWords s r 0x3401020 10)

/-- The staged result word. -/
def tblRes (s : State) (r : Req) : Nat := (rv s (reqKey r 0x3401014)).toNat * 2 ^ 32 + (rv s (reqKey r 0x3401010)).toNat

/-- Put a result word into the requester's TBL_RES registers. -/
def setTblRes (r : Req) (w : Nat) (s : State) : State :=
  rset (rset s (reqKey r 0x3401010) (w32 w)) (reqKey r 0x3401014) (w32 (w / 2 ^ 32))

/-- TBL_STS of a completed command: RESULT, and HIT and VALID where the command gives them; a command that does not leaves them
as they were (13 R371). -/
def tblSts (r : Req) (result : Nat) (hit valid : Option Bool) (s : State) : State :=
  let old := rv s (reqKey r 0x3401004)
  rset s (reqKey r 0x3401004) (w32 (b2n (valid.getD (bit old 5)) * 32 + b2n (hit.getD (bit old 4)) * 16 + result))

/-- A command on the table is refused with RANGE (R371). -/
def tblRange (r : Req) (t : Nat) (s : State) : State := cnt (tblCnt t 7) (tblSts r 6 none none s)

/-- The source of a host or steward write (18 R494). -/
def reqSrc : Req → Nat
  | .steward => 2
  | _ => 1

/-- Apply an operation to every replica PIPES names, ascending, or to the one replica of another table: TBL_PSTS and the
status of R360. Answers the results by replica. -/
def tblEach (g : TgeoRec) (pipes : Nat) (op : Nat → State → Nat × State) (s : State) : List (Nat × Nat) × State :=
  let reps := if g.kind = 2 then (List.range 4).filter (fun p => pipes.testBit p) else [0]
  reps.foldl (fun (a : List (Nat × Nat) × State) p =>
    let x := op p a.2
    (a.1 ++ [(p, x.1)], x.2)) ([], s)

/-- TBL_PSTS and TBL_STS from the results by replica (R360). -/
def tblReport (r : Req) (g : TgeoRec) (res : List (Nat × Nat)) (hit : Option Bool) (s : State) : State :=
  let s := if g.kind = 2 then rset s (reqKey r 0x3401008) (w32 ((res.map (fun p => p.2 * 16 ^ p.1)).sum)) else s
  let st := match res.find? (fun p => p.2 != 0) with
    | some p => p.2
    | none => 0
  tblSts r st hit none s

/-- A write operation of TBL_CMD with its journal record where it changed something (R357, R359, 18 R494). -/
def tblWriteCmd (r : Req) (op pipes : Nat) (g : TgeoRec) (f : Nat → State → Nat × State) (s : State) : State :=
  let (res, s) := tblEach g pipes f s
  let s := if res.any (fun p => p.2 == 0) then tblWrote g op pipes (reqSrc r) (whoNone g.inst) s else s
  tblReport r g res none s

/-- Judge the table a TBL command names and its PIPES (R369, R371), then perform `go`. -/
def tblCmd (r : Req) (op t pipes : Nat) (clr : Bool) (go : TgeoRec → State → State) (s : State) : State :=
  asked r 0x3401000 (fun s =>
    let denied (s : State) : State :=
      let s := tblSts r 5 none none s
      match reqInst s r with
      | some i => cnt (0x3405000 + 4 * i) s
      | none => s
    let put (s : State) : State := rset s (reqKey r 0x3401000) (w32 (op * 2 ^ 27 + b2n clr * 2 ^ 26 + pipes * 2 ^ 20 + t))
    if 255 ≤ t then cfgReject 22 0 s
    else match tgeoRec s t with
      | none => if reqPriv r then tblSts r 6 none none (put s) else denied (put s)
      | some g =>
        if !reqFor s r g.inst then denied (put s)
        else if g.kind = 2 && pipes = 0 then cfgReject 22 0 s
        else go g (put s)) s

/-- TBL_INSERT (R357). -/
def execTblInsert (r : Req) (t : Fin 256) (pipes : Fin 16) (s : State) : Result :=
  .next (tblCmd r 1 t.val pipes.val false (fun g s =>
    match tblStaged s r g with
    | none => tblRange r t.val s
    | some k => match (if g.kind = 1 then none else tblEnt g k (tblRes s r)) with
      | none => tblRange r t.val s
      | some e => tblWriteCmd r 1 pipes.val g (fun p s => tblInsert g p k e s) s) s)

/-- TBL_UPDATE (R359). -/
def execTblUpdate (r : Req) (t : Fin 256) (pipes : Fin 16) (s : State) : Result :=
  .next (tblCmd r 2 t.val pipes.val false (fun g s =>
    match tblStaged s r g with
    | none => tblRange r t.val s
    | some k => match (if g.kind = 1 then none else tblEnt g k (tblRes s r)) with
      | none => tblRange r t.val s
      | some e => tblWriteCmd r 2 pipes.val g (fun p s => tblUpdate g p k e s) s) s)

/-- TBL_DELETE (R359). -/
def execTblDelete (r : Req) (t : Fin 256) (pipes : Fin 16) (s : State) : Result :=
  .next (tblCmd r 3 t.val pipes.val false (fun g s =>
    match tblStaged s r g with
    | none => tblRange r t.val s
    | some k => if g.kind = 1 then tblRange r t.val s
      else tblWriteCmd r 3 pipes.val g (fun p s => tblDelete g p k s) s) s)

/-- TBL_LOOKUP (R355, R360): where several replicas are named, the spec does not say whose result word is returned; it is
that of a free choice among them. -/
def execTblLookup (r : Req) (t : Fin 256) (pipes : Fin 16) (s : State) : Result :=
  .next (tblCmd r 4 t.val pipes.val false (fun g s =>
    match tblStaged s r g with
    | none => tblRange r t.val s
    | some k =>
      let reps := if g.kind = 2 then (List.range 4).filter (fun p => pipes.val.testBit p) else [0]
      let out := reps.foldl (fun (a : List (Nat × Option Nat) × State) p =>
        let x := tblLookup g p k false a.2
        (a.1 ++ [(p, x.1)], x.2)) ([], s)
      let (n, s) := drawPick reps.length out.2
      let w := match out.1[n]? with
        | some (_, some w) => w
        | _ => missWord
      tblReport r g (out.1.map (fun p => (p.1, if p.2.isSome then 0 else 1))) none (setTblRes r w s)) s)

/-- HIT of a key in one replica, cleared where CLR is set (R365). -/
def tblHitRead (g : TgeoRec) (clr : Bool) (p key : Nat) (s : State) : Option Bool × State :=
  match tblWays s g p key with
  | [] => (none, s)
  | ws =>
    let h := ws.any (fun w => match entAt s g.table p w.1 w.2 with
      | some e => e.hit
      | none => false)
    (some h, if clr then ws.foldl (fun s w => match entAt s g.table p w.1 w.2 with
      | some e => entSet g.table p w.1 w.2 (some { e with hit := false }) s
      | none => s) s else s)

/-- TBL_HITREAD (R365). The HIT reported for several replicas is that of a free choice among them. -/
def execTblHitread (r : Req) (t : Fin 256) (pipes : Fin 16) (clr : Bool) (s : State) : Result :=
  .next (tblCmd r 5 t.val pipes.val clr (fun g s =>
    match tblStaged s r g with
    | none => tblRange r t.val s
    | some k => if g.kind = 1 then tblRange r t.val s
      else
        let reps := if g.kind = 2 then (List.range 4).filter (fun p => pipes.val.testBit p) else [0]
        let out := reps.foldl (fun (a : List (Nat × Option Bool) × State) p =>
          let x := tblHitRead g clr p k a.2
          (a.1 ++ [(p, x.1)], x.2)) ([], s)
        let (n, s) := drawPick reps.length out.2
        let h : Option Bool := match out.1[n]? with
          | some (_, some h) => some h
          | _ => none
        let s := if clr && out.1.any (fun p => p.2.isSome) then tblWrote g 5 pipes.val (reqSrc r) (whoNone g.inst) s else s
        tblReport r g (out.1.map (fun p => (p.1, if p.2.isSome then 0 else 4))) h s) s)

/-- The entry index an associative command names, or none where it is out of range (R361). -/
def amIndex (s : State) (r : Req) (g : TgeoRec) : Option Nat :=
  let k := rf s (reqKey r 0x340100C) 17 0
  if g.kind = 1 && decide (k < g.size) && (g.width = 0 || k % 2 = 0) then some (g.base + k) else none

/-- AM_WRITE (R361). -/
def execAmWrite (r : Req) (t : Fin 256) (pipes : Fin 16) (s : State) : Result :=
  .next (tblCmd r 6 t.val pipes.val false (fun g s =>
    match amIndex s r g, tblStaged s r g, tblKey g (reqWords s r 0x3401060 10) with
    | some k, some v, some m =>
      let s := { s with tbl := { s.tbl with am := mins s.tbl.am k { value := v, mask := m, res := tblRes s r } } }
      tblSts r 0 none none (tblWrote g 6 pipes.val (reqSrc r) (whoNone g.inst) s)
    | _, _, _ => tblRange r t.val s) s)

/-- AM_INVAL (R361). -/
def execAmInval (r : Req) (t : Fin 256) (pipes : Fin 16) (s : State) : Result :=
  .next (tblCmd r 7 t.val pipes.val false (fun g s =>
    match amIndex s r g with
    | some k =>
      let s := { s with tbl := { s.tbl with am := mdel s.tbl.am k } }
      tblSts r 0 none none (tblWrote g 7 pipes.val (reqSrc r) (whoNone g.inst) s)
    | none => tblRange r t.val s) s)

/-- Put a string of a table's width into ten words at `off` (R349). -/
def putKey (r : Req) (g : TgeoRec) (off v : Nat) (s : State) : State :=
  let v := v * 2 ^ (320 - 8 * keyBytes g)
  (List.range 10).foldl (fun s k => rset s (reqKey r (off + 4 * k)) (w32 (v / 2 ^ (32 * (9 - k))))) s

/-- AM_READ (R361): RESULT is OK whether or not the entry is valid. What an entry that is not valid holds is a free
value: the spec gives VALID alone. -/
def execAmRead (r : Req) (t : Fin 256) (pipes : Fin 16) (s : State) : Result :=
  .next (tblCmd r 8 t.val pipes.val false (fun g s =>
    match amIndex s r g with
    | some k => match mfind s.tbl.am k with
      | some e =>
        tblSts r 0 none (some true) (setTblRes r e.res (putKey r g 0x3401060 e.mask (putKey r g 0x3401020 e.value s)))
      | none =>
        let draw := (List.range 22).foldl (fun (a : List Word × State) _ =>
          let x := drawWord a.2
          (a.1 ++ [x.1], x.2)) ([], s)
        let n := fun o => (draw.1.drop o).take 10 |>.foldl (fun a w => a * 2 ^ 32 + w.toNat) 0
        let m := 2 ^ (8 * keyBytes g)
        let s := setTblRes r (((draw.1[20]?).getD 0).toNat * 2 ^ 32 + ((draw.1[21]?).getD 0).toNat) draw.2
        tblSts r 0 none (some false) (putKey r g 0x3401060 (n 10 % m) (putKey r g 0x3401020 (n 0 % m) s))
    | none => tblRange r t.val s) s)

/-- The key of a table's replica among the sweeps. -/
def swKey (t p : Nat) : Nat := t * 4 + p

/-- Start a sweep (R366). -/
def sweepGo (t p : Nat) (s : State) : State :=
  let s := hCommit (0x3408000 + 4 * t) s
  { s with tbl := { s.tbl with sweep := mins s.tbl.sweep (swKey t p) 0, swept := mins s.tbl.swept (swKey t p) s.clk.fab } }

/-- The next sweep of a table or replica is due: AGE_PERIOD ms have passed since the start of the previous one. -/
def sweepDue (s : State) (t p : Nat) : Bool :=
  match mfind s.tbl.swept (swKey t p) with
  | some a => decide (a + rf s (0x3408000 + 4 * t) 19 0 * 1000000 ≤ s.clk.fab)
  | none => true

/-- AGE_SWEEP_START (R366): a sweep in progress finishes first. -/
def execAgeSweepStart (t : Fin 255) (pipe : Fin 4) (s : State) : Result :=
  .next (match tgeoRec s t.val with
    | none => s
    | some g =>
      if g.kind = 1 || (g.kind = 0 && pipe.val != 0) || !rb s (0x3408000 + 4 * t.val) 31 ||
          mhas s.tbl.sweep (swKey t.val pipe.val) || !sweepDue s t.val pipe.val then s
      else sweepGo t.val pipe.val s)

/-- A sweep's action on one entry (R366). -/
def sweepEnt (g : TgeoRec) (p b w : Nat) (s : State) : State :=
  match entAt s g.table p b w with
  | none => s
  | some e =>
    if g.kind = 0 || e.stat then entSet g.table p b w (some { e with hit := false }) s
    else if e.hit then entSet g.table p b w (some { e with hit := false, stale := false }) s
    else if !e.stale then entSet g.table p b w (some { e with stale := true }) s
    else
      let s := cnt (tblCnt g.table 5) (entSet g.table p b w none s)
      let s := tblWrote g 9 (2 ^ p) 3 (whoNone g.inst) s
      if lrnFull s g.inst p then cnt (lrnCnt g.inst p 5) s
      else cnt (lrnCnt g.inst p 3) (lrnPut g.inst p
        (lrnMsg s 4 p g.table (nbits e.res 30 24) 0 (nbits e.key 59 48) (nbits e.key 47 0)) s)

/-- SWEEP_VISIT (R366): the next bucket of the sweep in progress. After the last, a sweep already due starts at once and
the delay is counted. -/
def execSweepVisit (t : Fin 255) (pipe : Fin 4) (s : State) : Result :=
  .next (match tgeoRec s t.val, mfind s.tbl.sweep (swKey t.val pipe.val) with
    | some g, some b =>
      let s := (List.range 4).foldl (fun s w => sweepEnt g pipe.val b w s) s
      if b + 1 < tblNB g then { s with tbl := { s.tbl with sweep := mins s.tbl.sweep (swKey t.val pipe.val) (b + 1) } }
      else
        let s := { s with tbl := { s.tbl with sweep := mdel s.tbl.sweep (swKey t.val pipe.val) } }
        if rb s (0x3408000 + 4 * t.val) 31 && sweepDue s t.val pipe.val then
          sweepGo t.val pipe.val (cnt (tblCnt t.val 6) s)
        else s
    | _, _ => s)

/-- LEARN_FILTER_EXPIRE (R364). -/
def execLearnFilterExpire (pipe : Fin 4) (s : State) : Result := .next (filtExpire pipe.val s)

/-- LEARN_QPOP (R367, R369, R372): a read of LRN_QPOP. -/
def execLearnQpop (r : Req) (s : State) : Result :=
  .next (match access r 0x3801404 false s with
    | some c => accErr r c 0x3801404 s
    | none =>
      let q := rv s (reqKey r 0x3801400)
      let i := bits q 7 3
      let p := bits q 1 0
      if !reqFor s r i then
        let s := match reqInst s r with
          | some j => cnt (0x3405000 + 4 * j) s
          | none => s
        emit (.readData r (w32 (2 ^ 30))) s
      else if rb s (lrnCfg i p) 30 then emit (.readData r (w32 (2 ^ 29))) s
      else
        let n := lrnLen s i p
        if n = 0 || !rb s (lrnCfg i p) 31 then emit (.readData r 0) s
        else
          let c := lrnCons s i p
          let a := lrnAddr s i p
          let slot := a + 64 + 16 * (c % 2 ^ rf s (lrnCfg i p) 29 25)
          let s := (List.range 4).foldl (fun s k =>
            rset s (reqKey r (0x3801410 + 4 * k)) (w32 (leVal (memRdN s.dram 0 (slot + 4 * k) 4)))) s
          let c' := (c + 1) % 2 ^ 17
          let s := dramWr (a + 4) (leBytes 4 c') { s with tbl := { s.tbl with cons := mput s.tbl.cons (i * 4 + p) c' 0 } }
          emit (.readData r (w32 (2 ^ 31 + (n - 1)))) s)

end Sys2Proof.Machine
end

