-- ==== Sys2Proof/Machine/Reports.lean ====
section
/-! DEFINITION. Memory errors, the error collector's commands, MRAM, the journal's commands and replay
(18_resilience_replay.md R473 to R503). -/

namespace Sys2Proof.Machine

/-- An SRAM record (R482). The memory ids are not given: a free value. -/
def sramRecord (kind sev a : Nat) (inst : Option Nat) (s : State) : State :=
  let (w, s) := drawWord s
  ercReport 0x80 kind sev (bits w 23 0) a inst s

/-- The entry of the matching store `e` is damaged (R473): a packet goes back to its pipe's parser and its operands are computed
again; a damaged MSG slot (`part` 0 to 3) of another item is marked MISSING, a damaged descriptor discards it. -/
def storeDamage (e part : Nat) (s : State) : State :=
  match itemOf s e with
  | none => s
  | some it =>
    match it.st with
    | .held => s
    | _ =>
      match it.cell with
      | some c => match pktOf s c with
        | none => s
        | some p =>
          let s := match it.st with
            | .ready => readyDrop it.list it.prio e s
            | _ => s
          let p := { p with parse := parseFrame s (graphOf s p.inst p.slot) p (rf s (epochSts p.inst p.slot) 15 0) }
          let (lkp, s) := profAll p s
          let s := setPkt c { p with lkp := if it.slots[1]? = some 2 then lkp else p.lkp } s
          itemCtxSt it .mtch (setItem e { it with st := .waiting, got := [] } s)
      | none =>
        if part < 4 then
          if (it.slots[part]?).getD 0 = 4 && !it.miss.contains part then
            let s := jnlInput 8 (itemWho s it) [part + 4, 0, 0] s
            itemCheck e (setItem e { it with got := it.got.filter (· != part), miss := part :: it.miss, msg := mdel it.msg part } s)
          else s
        else
          let s := itemDiscard e s
          match it.ctx with
          | some x => ctxVoid x 0x40 s
          | none => s

/-- A damaged entry of a pool's free ring is discarded; its buffer returns at the next initialisation (R473). -/
def ringDamage (k n : Nat) (s : State) : State :=
  match mfind s.bpm.pool k with
  | some p => setPool k { p with ring := p.ring.eraseIdx n } s
  | none => s

/-- The outcome of an uncorrectable read in memory `m` (R473). -/
def sramBad (m a : Nat) (s : State) : State :=
  match m with
  | 1 => { s with cores := { s.cores with badLine := mput s.cores.badLine (a / 64) true false } }
  | 2 => match pktOf s a with
    | some p => setPkt a { p with bad := true } s
    | none => s
  | 3 => { s with tbl := { s.tbl with ent := mdel s.tbl.ent a } }
  | 4 => storeDamage (a % 16384) (a / 16384) s
  | 6 => insResetIf (a % 32) 0 s
  | 8 => ringDamage (a % 16) (a / 16) s
  | 9 => stewardTake 9 s
  | _ => s

/-- SCRUB_VISIT: the scrubber reads word `a` of an SRAM and finds no bad bit, one, or two (R473, R474). `m` names the memory: 0
core-local memory, 1 an instruction store, 2 the packet buffer, 3 exact-match and learning tables, 4 the matching store, 5 one copy
of an order queue or free-ring cache, 6 both copies, of instance `a`, 7 program scratch, 8 a pool's ring, 9 steward memory, 10 the host
descriptor cache, others any other. -/
def execScrubVisit (m : Fin 16) (a : Nat) (bad : Fin 3) (s : State) : Result :=
  .next (match bad.val with
    | 0 => s
    | 1 => sramRecord 1 0 a none s
    | _ => sramBad m.val a (if m.val = 6 then sramRecord 3 3 a (some (a % 32)) s else sramRecord 2 2 a none s))

/-- The instance that owns a bank of the associative memory (02 R66). -/
def bankInst (s : State) (b : Nat) : Option Nat := (s.img.inst.find? (fun r => r.amBanks.testBit b)).map (·.inst)

/-- AM_CHECK: the checker compares entry `e` with its shadow (R475): nothing differs, the entry is rewritten, or the shadow itself is
uncorrectable and the entry is invalidated. -/
def execAmCheck (e : Fin 262144) (bad : Fin 3) (s : State) : Result :=
  let b := e.val / 16384
  .next (match bad.val with
    | 0 => s
    | 1 => ercReport 0x81 1 0 b e.val (bankInst s b) s
    | _ => ercReport 0x81 2 2 b e.val (bankInst s b) { s with tbl := { s.tbl with am := mdel s.tbl.am e.val } })

/-- ERROR_REPORT: an error reaches the collector (R484). -/
def execErrorReport (src : Fin 18) (kind : Fin 256) (sev : Fin 4) (unit : Fin 16777216) (loc : BitVec 64) (inst : Option (Fin 32))
    (s : State) : Result :=
  .next (ercReport (0x80 + src.val) kind.val sev.val unit.val loc.toNat (inst.map (·.val)) s)

/-- The sources a word of ERC_ACK names are acknowledged (R485); health may return (19 R515). -/
def ercAcks (j : Nat) (v : Word) (s : State) : State :=
  let s := foldS (List.range 32) (fun b s => if bit v b then ercAck1 (0x80 + 32 * j + b) s else s) s
  if healthy s then hbCheck s else s

/-- ERC_ACK: a source's pending bit and record clear (R485). -/
def execErcAck (r : Req) (j : Fin 2) (v : Word) (s : State) : Result :=
  .next (asked r (0x382010 + 4 * j.val) (ercAcks j.val v) s)

/-- The physical block of a logical MRAM block (R488, R489). -/
def mramPhys (s : State) (b : Nat) : Nat := mget s.mram.map b b

/-- Count a write to a logical block. -/
def mramTouch (b : Nat) (s : State) : State :=
  { s with mram := { s.mram with writes := mmod s.mram.writes (mramPhys s b) 0 (· + 1) } }

/-- FAULT_LOG_APPEND: the steward appends the oldest record that is due (R486, R488); logical blocks 4 to 131 hold the log (log). -/
def execFaultLogAppend (s : State) : Result :=
  .next (match s.mram.logPend with
    | [] => s
    | r :: t =>
      if !stwUp s then s
      else
        let n := s.mram.logNext
        let s := { s with mram := { s.mram with
          logPend := t, log := mins s.mram.log n (r ++ [rv s 0x301100]), logNext := (n + 1) % 16384,
          logWrapped := s.mram.logWrapped || n == 16383 } }
        cnt 0x301118 (mramTouch (4 + n / 128) s))

/-- Logical blocks in use: the areas of R488 but the spares. -/
def mramUsed : Nat := 389

/-- The spare blocks: physical blocks no logical block in use maps to. -/
def mramSpares (s : State) : List Nat :=
  let used := (List.range mramUsed).map (mramPhys s)
  (List.range 2048).filter (fun p => !used.contains p)

/-- MRAM_ROTATE: the block under logical block `b` is worn: it is copied to the spare with the fewest writes, and the map points there
once its readback succeeds (R489). -/
def execMramRotate (b : Fin 2048) (ok : Bool) (s : State) : Result :=
  .next (if decide (b.val < mramUsed) && ok && stwUp s then
    let w (p : Nat) : Nat := mget s.mram.writes p 0
    let sp := mramSpares s
    let least := sp.filter (fun p => sp.all (fun q => decide (w p ≤ w q)))
    let (k, s) := drawPick least.length s
    match least[k]? with
    | some p =>
      let s := { s with mram := { s.mram with map := mput s.mram.map b.val p b.val } }
      cnt 0x30111C (mramTouch b.val s)
    | none => s
  else s)

/-- The histogram bin of a temperature in units of 1/16 °C (R490). -/
def thistBin (t : Int) : Nat := if t < -560 then 0 else if 2400 < t then 38 else min 37 ((t + 640) / 80).toNat

/-- TELEMETRY_SNAPSHOT: every second the bin of the hottest sensor counts, and so do the power-on seconds (R490, R504). -/
def execTelemetrySnapshot (s : State) : Result :=
  .next (if s.boot.phase = 0 then s
  else cnt 0x301100 (cnt (0x301000 + 4 * thistBin (sgn 16 (rf s 0x1140 15 0))) s))

/-- THIST_WRITE: once an hour the histogram and the lifetime counters are written to MRAM (R490). -/
def execThistWrite (s : State) : Result := .next (if s.boot.phase = 0 then s else mramTouch 132 (thistStore s))

/-- START of JNL_CMD, from IDLE (R491, R496). -/
def jnlStart (s : State) : State :=
  match s.jnl.st with
  | .idle => if (blkGet s 7 0).idleReq then s else jnlControl 0 [fab48 s] { s with jnl := { s.jnl with st := .run, lastPkt := [], capBits := 9216 * 8, capAt := s.clk.fab } }
  | _ => s

/-- JNL_START: START in JNL_CMD (R491). -/
def execJnlStart (r : Req) (s : State) : Result := .next (asked r 0x401200 jnlStart s)

/-- STOP of JNL_CMD: to IDLE (R503). -/
def jnlStop (s : State) : State := { s with jnl := { s.jnl with st := .idle } }

/-- JNL_STOP: STOP in JNL_CMD. -/
def execJnlStop (r : Req) (s : State) : Result := .next (asked r 0x401200 jnlStop s)

/-- The host's trigger (R497); the spec names no REASON and no data word for it: free values. -/
def jnlHost (s : State) : State :=
  let (a, s) := drawWord s
  let (b, s) := drawWord s
  (jnlTrigger 3 (bits a 7 0) b s).1

/-- JNL_TRIGGER: TRIGGER in JNL_CMD. -/
def execJnlTrigger (r : Req) (s : State) : Result := .next (asked r 0x401200 jnlHost s)

/-- REARM of JNL_CMD: FROZEN to IDLE (R491). -/
def jnlRearm (s : State) : State :=
  match s.jnl.st with
  | .frozen => { s with jnl := { s.jnl with st := .idle } }
  | _ => s

/-- JNL_REARM: REARM in JNL_CMD. -/
def execJnlRearm (r : Req) (s : State) : Result := .next (asked r 0x401200 jnlRearm s)

/-- TIMEBASE_RECORD: every 1 ms a TIMEBASE record is written for each pipe (R496). -/
def execTimebaseRecord (s : State) : Result := .next (foldS (List.range 4) jnlTimebase s)

/-- JOURNAL_FREEZE: POST_US after the trigger FREEZE is written, the end position recorded, and the journal is FROZEN (R498). -/
def execJournalFreeze (s : State) : Result :=
  .next (if s.jnl.st = .post && decide (s.jnl.trigAt + rf s 0x408000 15 0 * 1000 ≤ s.clk.fab) then
    let s := jnlControl 4 [] s
    let fin := (s.jnl.pos + ringWords s - 1) % ringWords s
    let e := (mget s.mram.trig s.jnl.trigEntry [])
    let e := e.take 4 ++ [w32 fin, w32 (fin / 2 ^ 32)] ++ e.drop 6
    { s with
      mram := { s.mram with trig := mins s.mram.trig s.jnl.trigEntry e },
      jnl := { s.jnl with st := .frozen } }
  else s)

/-- RP_INST and SRC_INST of JNL_RPCFG. -/
def rpInst (s : State) : Nat := rf s 0x408100 28 24
def rpSrc (s : State) : Nat := rf s 0x408100 20 16

/-- Words of the script (R503). -/
def rpLen (s : State) : Nat := (rv s 0x408108).toNat * 512

/-- Word `k` of the script (R500). -/
def rpWord (s : State) (k : Nat) : Nat :=
  leVal (memRdN s.dram 0 ((instF s (rpInst s) (·.dramBase) + (rv s 0x408104).toNat) * 1048576 + 8 * k) 8)

/-- Words a record takes (R492 to R496). -/
def recWords (w : Nat) : Nat :=
  match nbits w 63 62 with
  | 0 => 1
  | 1 => 1 + nbits w 44 42
  | 2 => 1 + cdiv (nbits w 61 48) 8
  | _ => 1 + nbits w 55 53

/-- The input records of an item from word `k` on (R500), as lists of words. -/
def rpScan (s : State) (nonpkt : Bool) (seq : Nat) : Nat → Nat → List (List Nat)
  | 0, _ => []
  | n + 1, k =>
    if rpLen s ≤ k then []
    else
      let w := rpWord s k
      let rest := rpScan s nonpkt seq n (k + recWords w)
      if nbits w 63 62 = 1 && nbits w 37 33 == rpSrc s && w.testBit 32 == nonpkt && w % 2 ^ 32 == seq && nbits w 61 56 < 7 then
        ((List.range (recWords w)).map (fun j => rpWord s (k + j))) :: rest
      else rest

/-- Of the inputs of an item those of the highest EXEC count (R499). -/
def rpCollect (s : State) (nonpkt : Bool) (seq : Nat) : List (List Nat) :=
  let l := rpScan s nonpkt seq (rpLen s) 0
  let ex (r : List Nat) : Nat := nbits ((r[0]?).getD 0) 39 38
  l.filter (fun r => l.all (fun q => decide (ex q ≤ ex r)))

/-- The replay instance holds no context and no item, and no packet on its way to one (R500). -/
def rpEmpty (s : State) : Bool :=
  let i := rpInst s
  s.dsp.ctxs.all (fun p => p.2.inst != i) && s.dsp.items.all (fun p => p.2.inst != i) &&
  !(s.dsp.wait.any (fun p => p.1 / 4 == i && !p.2.isEmpty)) &&
  !((s.port.toParse ++ s.port.toClass).any (fun p => p.2.any (fun c => match pktOf s c with
    | some k => k.inst == i
    | none => false)))

/-- The engine moves past `n` words. -/
def rpSkip (n : Nat) (s : State) : State := { s with jnl := { s.jnl with rpPos := s.jnl.rpPos + n } }

/-- The engine enters a state. -/
def rpTo (st : RpSt) (s : State) : State := { s with jnl := { s.jnl with rp := st } }

/-- The engine injects a recorded frame (R500): its PACKET record is `w`, its CAPTURE record `c`. -/
def rpPacket (w c : Nat) (s : State) : State :=
  let n := nbits c 61 48
  let bs := (((List.range (cdiv n 8)).map (fun j => leBytes 8 (rpWord s (s.jnl.rpPos + 2 + j)))).flatten).take n
  if nbits c 63 62 ≠ 2 || nbits w 39 26 != n || nbits w 17 2 != (crcR crc32cPoly 0xFFFFFFFF bs ^^^ 0xFFFFFFFF) % 65536 then
    rpTo .badScript s
  else
    let k := cdiv n 256
    if rf s 0x1009100 17 0 < s.port.hostUsed + k then s
    else match freeCell s with
      | (none, s) => s
      | (some cell, s) =>
        let q := c % 2 ^ 32
        let pipe := nbits w 61 60
        let s := setPkt cell { Pkt.init with
          inst := rpInst s, win := bs, bytes := bs, inPort := nbits w 46 40, from_ := 122, pipe := pipe, rxNs := s.clk.ns,
          rxSec := s.clk.sec, cells := k, jseq := some q } s
        let l := mget s.port.toParse pipe []
        let s := { s with
          port := { s.port with hostUsed := s.port.hostUsed + k, toParse := mput s.port.toParse pipe (l ++ [cell]) [] } }
        let ins := rpCollect s false q
        rpSkip (1 + recWords c) { s with jnl := { s.jnl with rpJseq := q, rpInputs := ins } }

/-- The engine creates a recorded item (R500): its record's words follow word `w`. -/
def rpItem (w : Nat) (s : State) : State :=
  let a := rpWord s (s.jnl.rpPos + 1)
  let b := rpWord s (s.jnl.rpPos + 2)
  let q := w % 2 ^ 32
  let ins := rpCollect s true q
  let s := { s with jnl := { s.jnl with rpJseq := q, rpInputs := ins } }
  rpSkip (recWords w) (itemCreate (rpInst s) 3 none [w32 a, w32 (a / 2 ^ 32), w32 b, w32 (b / 2 ^ 32)] s).2.2

/-- The engine performs an aging removal (R500). The record does not name the entry: which one of its table goes is free. -/
def rpAging (t : Nat) (s : State) : State :=
  match tgeoRec s t with
  | none => s
  | some g =>
    let ks := (s.tbl.ent.filter (fun p => p.1 / 2 ^ 24 == t)).map (·.1)
    let (k, s) := drawPick ks.length s
    match ks[k]? with
    | some x => tblWrote g 9 (2 ^ (x / 2 ^ 22 % 4)) 3 (whoNone g.inst) { s with tbl := { s.tbl with ent := mdel s.tbl.ent x } }
    | none => s

/-- The engine works through the next record of the script (R500). -/
def rpStep (s : State) : State :=
  if rpLen s ≤ s.jnl.rpPos then rpTo .done s
  else
    let w := rpWord s s.jnl.rpPos
    match nbits w 63 62 with
    | 0 => if rpEmpty s then rpPacket w (rpWord s (s.jnl.rpPos + 1)) s else s
    | 1 =>
      if nbits w 37 33 ≠ rpSrc s then rpSkip (recWords w) s
      else match nbits w 61 56 with
        | 7 => if rpEmpty s then rpItem w s else s
        | 10 =>
          let x := rpWord s (s.jnl.rpPos + 1)
          match nbits x 15 14 with
          | 0 => rpSkip (recWords w) s
          | 3 => rpSkip (recWords w) (rpAging (nbits x 31 24) s)
          | _ => rpTo .paused (rpSkip (recWords w) s)
        | _ => rpSkip (recWords w) s
    | _ => rpSkip (recWords w) s

/-- START of JNL_RPCMD, from IDLE (R500, R503). -/
def rpStart (s : State) : State :=
  match s.jnl.rp with
  | .idle => if (blkGet s 7 0).idleReq then s else { s with jnl := { s.jnl with rp := .run, rpPos := 0, rpInputs := [], rpJseq := 0 } }
  | _ => s

/-- RP_START: START in JNL_RPCMD. -/
def execRpStart (r : Req) (s : State) : Result := .next (asked r 0x401300 rpStart s)

/-- CONTINUE of JNL_RPCMD: a PAUSED replay goes on (R500). -/
def rpContinue (s : State) : State :=
  match s.jnl.rp with
  | .paused => rpTo .run s
  | _ => s

/-- RP_CONTINUE: CONTINUE in JNL_RPCMD. -/
def execRpContinue (r : Req) (s : State) : Result := .next (asked r 0x401300 rpContinue s)

/-- STOP of JNL_RPCMD ends a replay (R503). -/
def rpStop (s : State) : State := { s with jnl := { s.jnl with rp := .idle, rpInputs := [] } }

/-- RP_STOP: STOP in JNL_RPCMD. -/
def execRpStop (r : Req) (s : State) : Result := .next (asked r 0x401300 rpStop s)

/-- REPLAY_INJECT: the engine works through one record; a frame or item waits until the replay instance is empty (R500). -/
def execReplayInject (s : State) : Result := .next (if s.jnl.rp = .run then rpStep s else s)

end Sys2Proof.Machine
end

