-- ==== Sys2Proof/Machine/RegView.lean ====
section
/-! DEFINITION. What a read of a register returns (00_scope.md R10 to R14): the words held, and the status registers that show the
rest of the state. -/

namespace Sys2Proof.Machine

/-- Bit b of a block sum: some copy of block `b` has `p` (20 R526). -/
def blkSum (s : State) (p : BlkCopy → Bool) : Nat :=
  ((List.range 30).map (fun b => if s.regs.blk.any (fun e => e.1 / 64 == b && p e.2) then 2 ^ b else 0)).sum

/-- BLK_CFGSTS of a block copy (01 R49). -/
def cfgstsWord (k : BlkCopy) : Word :=
  w32 (b2n k.expert * 2 ^ 8 + b2n k.cfgMode * 4 + b2n k.cfgReject * 2 + b2n k.cfgBusy)

/-- BLK_STATE of a block copy (01 R49, R50). -/
def blkStateWord (s : State) (b c : Nat) : Word :=
  w32 (b2n (blkGet s b c).idleReq * 2 ^ 8 + match blkState s b c with
    | .reset => 0
    | .idle => 1
    | .run => 2
    | .draining => 3)

/-- The code of a context's state (05 R176). -/
def ctxCode : CtxSt → Nat
  | .free => 0
  | .mtch => 1
  | .ready => 2
  | .run => 3
  | .done => 4
  | .unord => 5

/-- The code of an instance's state (16 R431). -/
def insCode : InsSt → Nat
  | .absent => 0
  | .creating => 1
  | .reset => 2
  | .run => 3
  | .resetting => 4

/-- A requester may see what belongs to instance `i`: the physical function and the steward see every instance. -/
def seesInst (s : State) (r : Req) (i : Option Nat) : Bool := reqPriv r || ((reqInst s r).isSome && reqInst s r == i)

/-- ORD_QSTS (05 R190). -/
def ordQsts (r : Req) (s : State) : Word :=
  let f := rf s (reqKey r 0x2401000) 15 0
  let own := (s.img.oflw.find? (fun o => decide (o.base ≤ f) && decide (f < o.base + o.count))).map (·.inst)
  if !seesInst s r own then 0x80000000
  else
    let l := (flowSeq s f).filter (fun x => decide ((ctxOf s x).st ≠ .unord))
    w32 ((match l with
      | [] => 0
      | x :: _ => ctxCode (ctxOf s x).st) * 2 ^ 28 + l.length)

/-- CORE_THRSTS[c][t] (06 R213). -/
def thrStsWord (s : State) (tid : Nat) : Word :=
  let t := thr s tid
  w32 (tstCode t.st * 2 ^ 29 + b2n (isSup s tid) * 2 ^ 28 + effPrio s tid % 4 * 2 ^ 26 + t.base % 4 * 2 ^ 24 +
    (match corePosy s (tid / 8) with
      | some r => r.id * 2 ^ 16 + r.inst
      | none => 0))

/-- CORE_CORESTS[c] (06 R213). -/
def coreStsWord (s : State) (c : Nat) : Word :=
  let r := coreRec s c
  w32 (b2n r.retired * 2 ^ 31 + b2n r.spareActive * 2 ^ 30 + r.other.getD 0xFF * 2 ^ 16 + min 255 (hwWindow s c).length * 2 ^ 8 +
    (coreInst s c).getD 0)

/-- CPX_CTXSTS[k][u][x] (10 R317). -/
def cpxStsWord (s : State) (k u x : Nat) : Word :=
  let c := cpxOf s k u x
  w32 (b2n c.holder.isSome * 2 ^ 31 + b2n c.dbg * 2 ^ 30 + b2n c.cmd.isSome * 2 ^ 29 + b2n c.releasing * 2 ^ 28 +
    (match c.holder with
      | some t => t / 8 * 2 ^ 8 + t % 8
      | none => 0))

/-- LCK_QSTS (11 R327, R332). -/
def lckQsts (r : Req) (s : State) : Word :=
  let n := (rv s (reqKey r 0x3001000)).toNat
  match lockInst s n with
  | some i => if seesInst s r (some i) then lockWord s n else 8
  | none => 8

/-- BPM_POOLSTS[k] (12 R348). -/
def poolStsWord (s : State) (k : Nat) : Word :=
  let p := poolOf s k
  let free := if poolValid s k then poolCount s k - p.fresh + p.ring.length + (p.cache.map (fun e => e.2.length)).sum else 0
  w32 (b2n (poolValid s k) * 2 ^ 31 + (match poolInst s k with
    | some i => 2 ^ 29 + i * 2 ^ 24
    | none => 0) + free)

/-- TM_QSTS (14 R395, R397). -/
def tmQsts (r : Req) (s : State) : Word :=
  let q := rf s (reqKey r 0x3A04000) 15 0
  if !seesInst s r ((qRec s q).map (·.inst)) then 0x80000000
  else w32 (b2n (mget s.tm.overShare q false) * 2 ^ 30 + b2n (tailFull (tmQ s q)) * 2 ^ 29 + occQ s q)

/-- TM_GATESTS[n] (14 R397). -/
def gateStsWord (s : State) (n : Nat) : Word :=
  let g := gateOf s n
  w32 (b2n g.pend.isSome * 2 ^ 31 + rf s (gateSts n) 30 30 * 2 ^ 30 + b2n g.on * 2 ^ 29 + g.bank % 2 * 2 ^ 28 + g.open_ % 256)

/-- HIF_RSTS[f][r] (16 R442). -/
def ringStsWord (s : State) (f k : Nat) : Word :=
  let x := ringOf s f k
  w32 (rf s (rcfg f k) 31 31 * 2 ^ 31 + b2n (x.err != 0) * 2 ^ 30 + x.err % 16 * 2 ^ 24 + x.dev % 2 ^ 17)

/-- INS_RES[i][k] (16 R434). -/
def insResWord (s : State) (i k : Nat) : Word :=
  if (insState s i) = .absent then 0
  else w32 (match k with
    | 0 => (posyCores s 9 (instF s i (·.root))).length
    | 1 => capOf s (instF s i (·.root))
    | 2 => instF s i (·.qCount)
    | 3 => instF s i (·.subCount)
    | 4 => instF s i (·.polCount)
    | 5 => instF s i (·.contexts)
    | 6 => instF s i (·.timers)
    | 7 => instF s i (·.dramSize)
    | 8 => instF s i (·.pools)
    | 9 => instF s i (·.amBanks)
    | 10 => rf s (0x3008000 + 4 * i) 26 16 * 64
    | 11 => rf s (0x3008080 + 4 * i) 25 16 * 4
    | 12 => ((s.img.oflw.filter (fun o => o.inst == i)).map (·.count)).sum
    | 13 => rf s (0x180A000 + 4 * i) 29 16
    | 14 => (s.img.port.filter (fun p => p.inst == i)).length
    | _ => ctxHeld s i)

/-- JNL_RPSTS (18 R503). -/
def rpStsWord (s : State) : Word :=
  let st := match s.jnl.rp with
    | .idle => 0
    | .run => 1
    | .paused => 2
    | .diverged => 3
    | .done => 4
    | .badScript => 5
  w32 (st * 2 ^ 29 + s.jnl.rpDiv.2.1 * 2 ^ 8 + s.jnl.rpDiv.2.2.1)

/-- The status registers of blocks 0 to 8 that show other state. -/
def viewLow (r : Req) (off : Nat) (s : State) : Option Word :=
  match blkOf off with
  | 0 =>
    if off = 0x1004 then some (w32 (instCap s * 2 ^ 16 + b2n (!cryOff s) * 2 ^ 9 + b2n (!macsecOff s) * 2 ^ 8 + (freeSpares s).length))
    else if off = 0x1020 then some (w32 (blkSum s (fun k => k.cfgBusy || k.cfgReject || k.cfgMode)))
    else if off = 0x1024 then some (w32 (blkSum s (fun k => k.expert)))
    else none
  | 1 =>
    if off = 0x101000 then some (if s.boot.phase = 0 then 0 else 0x3FF)
    else if off = 0x101008 || (arrIx off 0x101100 4 10).isSome then some (Config.freeWord s.free)
    else none
  | 2 => if off = 0x181000 then some (setBit (rv s off) 29 (healthy s)) else none
  | 3 =>
    if off = 0x201400 then some (setBits (rv s off) 8 0 (fuseNum s 0 9))
    else match arrIx off 0x201410 4 4, arrIx off 0x201000 4 256 with
      | some k, _ => some (w32 (arbValue s k))
      | _, some w => if 72 ≤ w && decide (w ≤ 79) then some 0 else none
      | _, _ => none
  | 4 =>
    let ses := mfind s.sec.sess (reqIdx r)
    if off = 0x281040 then some (match ses with
      | some x => w32 (2 ^ 31 + x.rights % 8 * 2 ^ 16)
      | none => 0)
    else if off = 0x281044 then some (match ses with
      | some x => w32 x.mask
      | none => 0)
    else if off = 0x281048 then some (w32 (b2n (lmsCur s).isNone * 2 ^ 31 + attLeft s))
    else match arrIx off 0x281080 4 15 with
      | some w => some (w32 (uN (devPub s) (4 * w) 4))
      | none => none
  | 5 =>
    if off = 0x301200 then some (w32 (b2n s.mram.logWrapped * 2 ^ 31 + s.mram.logNext))
    else if off = 0x301400 then
      some (w32 (min 65535 (s.mram.writes.foldl (fun m e => max m e.2) 0 / 65536) * 65536 + (mramSpares s).length))
    else match arrIx off 0x301220 4 8, arrIx off 0x301320 4 8 with
      | some w, _ => some (((mget s.mram.log (rf s (reqKey r 0x301204) 13 0) [])[w]?).getD 0)
      | _, some w => some (((mget s.mram.trig (rf s (reqKey r 0x301300) 5 0) [])[w]?).getD 0)
      | _, _ => none
  | 7 =>
    if off = 0x401000 then some (w32 ((match s.jnl.st with
      | .idle => 0
      | .run => 1
      | .post => 2
      | .frozen => 3) * 2 ^ 30))
    else if off = 0x40100C then some (w32 s.jnl.jseq)
    else if off = 0x401304 then some (rpStsWord s)
    else if off = 0x401308 then some (w32 s.jnl.rpDiv.1)
    else if off = 0x40130C then some (w32 s.jnl.rpDiv.2.2.2)
    else none
  | _ => none

/-- The status registers of blocks 12 to 19 that show other state. -/
def viewMid (r : Req) (off : Nat) (s : State) : Option Word :=
  match blkOf off with
  | 12 =>
    if off = 0x1001004 then some (w32 (sharedFree s).toNat)
    else match arrIx off 0x1001100 4 512 with
      | some k => some (w32 (b2n (mget s.port.xoff k false) * 2 ^ 31 + occSum s (k / 8) (k % 8)))
      | none => none
  | 13 =>
    let p := copyOf off
    if off = 0x1401C04 + 0x100000 * p then some (w32 (fragOf s p).length)
    else if off = 0x1408100 + 0x100000 * p then some (setBit (rv s off) 31 (!pipeLong s p))
    else none
  | 16 =>
    if off = 0x2001080 then some (w32 (ctxPoolFree s))
    else match arrIx off 0x2001000 4 32, arrIx off 0x2002000 4 16 with
      | some i, _ => some (w32 (itemsHeld s i * 2 ^ 16 + ctxHeld s i))
      | _, some l => some (w32 (s.dsp.dl.filter (fun e => e.2.list == l)).length)
      | _, _ => none
  | 17 =>
    if off = 0x2401004 then some (ordQsts r s)
    else if off = 0x2401800 then some (w32 s.dsp.ctxs.length)
    else none
  | 18 => match arrIx off 0x2801000 4 1056, arrIx off 0x2803000 4 1056, arrIx off 0x2805000 4 132, arrIx off 0x2806000 0x20 132 with
    | some t, _, _, _ => some (thrStsWord s t)
    | _, some t, _, _ => some (w32 (if (thr s t).st = .stopped then (thr s t).pc else (thr s t).lastPc))
    | _, _, some c, _ => some (coreStsWord s c)
    | _, _, _, some c =>
      let n := mget s.cores.commits c 0
      match (off - 0x2806000) % 0x20 with
      | 0 => some (w32 n)
      | 4 => some (w32 (n / 2 ^ 32))
      | 24 => some (Config.freeWord s.free)
      | _ => none
    | _, _, _, _ => none
  | 19 => match arrIx off 0x2C01000 4 2048, arrIx off 0x2C04000 4 32 with
    | some k, _ => if (k / 8) % 8 < 7 then some (cpxStsWord s (k / 64) (k / 8 % 8) (k % 8)) else none
    | _, some k => some (w32 (b2n (clusterInst s k).isSome * 2 ^ 31 + unitsOf s k % 128))
    | _, _ => none
  | _ => none

/-- The status registers of blocks 20 to 29 that show other state. -/
def viewHigh (r : Req) (off : Nat) (s : State) : Option Word :=
  match blkOf off with
  | 20 => if off = 0x3001004 then some (lckQsts r s) else none
  | 21 => match arrIx off 0x3201000 4 16, arrIx off 0x3201100 4 64 with
    | some k, _ => some (poolStsWord s k)
    | _, some k => some (w32 (cacheOf (poolOf s (k / 4)) (k % 4)).length)
    | _, _ => none
  | 22 => match arrIx off 0x3404000 4 1020 with
    | some k => some (w32 (tblUse s (k / 4) (k % 4)))
    | none => none
  | 23 => match arrIx off 0x3803000 4 4 with
    | some p => some (w32 (filtOf s p).length)
    | none => none
  | 24 =>
    if off = 0x3A04004 then some (tmQsts r s)
    else match arrIx off 0x3A03000 4 64, arrIx off 0x3A04800 4 32 with
      | some n, _ => some (gateStsWord s n)
      | _, some i => some (w32 (b2n (mget s.tm.overShare (65536 + i) false) * 2 ^ 31 + occI s i))
      | _, _ => none
  | 28 => match arrIx off 0x3F02000 4 1056 with
    | some k => some (ringStsWord s (k / 32) (k % 32))
    | none => none
  | 29 => match arrIx off 0x3F81100 4 32, arrIx off 0x3F82000 4 512 with
    | some i, _ => some (w32 (insCode (insState s i) * 2 ^ 29 + b2n (mget s.ctl.flr ((instRec s i).elim 0 (·.vf)) false) * 2 ^ 28 +
        rf s off 15 0))
    | _, some k => some (insResWord s (k / 16) (k % 16))
    | _, _ => none
  | _ => none

/-- The word behind a register for a requester: that of a status register that shows other state, the shadow value of an H field
(00 R16), or the word held. -/
def regWordAt (r : Req) (off : Nat) (s : State) : Word :=
  match viewLow r off s, viewMid r off s, viewHigh r off s with
  | some w, _, _ => w
  | _, some w, _ => w
  | _, _, some w => w
  | _, _, _ => rShow s (regKey r off)

/-- What the read of a register does beyond returning its word: RC fields clear (00 R11), a read of an octet low word clears the
pair and latches the high word, in the place of a shadow value, for the next read (03 R121), and the draw of a free value is
spent. -/
def readEffect (r : Req) (off : Nat) (d : RegDesc) (s : State) : State :=
  match viewLow r off s, viewMid r off s, viewHigh r off s with
  | none, none, none =>
    let k := regKey r off
    let j := (off - 0x801100) % 0x10000 / 4
    if blkOf off = 9 && d.off == 0x801100 && (j == 10 || j == 12) then
      let s := { s with regs := { s.regs with shadow := mins s.regs.shadow (k + 4) (rv s (k + 4)) } }
      rset (rset s k 0) (k + 4) 0
    else if blkOf off = 9 && d.off == 0x801100 && (j == 11 || j == 13) && mhas s.regs.shadow k then
      { s with regs := { s.regs with shadow := mdel s.regs.shadow k } }
    else if d.fields.any (fun f => decide (f.acc = .rc)) then rset s k (d.afterRead (rv s k)) else s
  | _, _, _ =>
    let s := if blkOf off = 1 || ((arrIx off 0x2806000 0x20 132).isSome && (off - 0x2806000) % 0x20 = 24) then
      { s with free := s.free + 1 } else s
    match arrIx off 0x2806000 0x20 132 with
    | some c =>
      let n := mget s.cores.commits c 0
      let put (v : Nat) : State := { s with cores := { s.cores with commits := mput s.cores.commits c v 0 } }
      if (off - 0x2806000) % 0x20 = 0 then put (n / 2 ^ 32 * 2 ^ 32)
      else if (off - 0x2806000) % 0x20 = 4 then put (n % 2 ^ 32) else s
    | none => s

/-- A read of a register by a requester that reaches it, with every side effect: the word returned is sent out. -/
def regReadDo (r : Req) (off : Nat) (s : State) : State :=
  let ran (x : Result) : State := match x with
    | .next t => t
    | _ => s
  if off = 0xE01000 then ran (execPtpTimeLatch r s)
  else if off = 0x3801404 then ran (execLearnQpop r s)
  else match (if off % 16 = 0 then arrIx off 0xE01100 0x10 64 else none) with
    | some m => ran (execTsfPop r (Fin.ofNat 64 m) s)
    | none =>
      if isHdr off then
        let b := blkOf off
        emit (.readData r (if inCopy off = 0 then cfgstsWord (blkGet s b (copyOf off)) else blkStateWord s b (copyOf off))) s
      else match regRow off with
        | some d => emit (.readData r (d.readWord (regWordAt r off s))) (readEffect r off d s)
        | none => emit (.readData r 0) s

/-- A read of a register (00 R12, R13): one that does not reach it returns 0 and records the access error. While an FLR of the
physical function runs, its reads return 0 (16 R440). -/
def regRead (r : Req) (off : Nat) (s : State) : State :=
  if r = .pf && mget s.ctl.flr 0 false then emit (.readData r 0) s
  else match access r off false s with
    | some c => emit (.readData r 0) (accErr r c off s)
    | none => regReadDo r off s

end Sys2Proof.Machine
end

