-- ==== Sys2Proof/Machine/RegLegal.lean ====
section
/-! DEFINITION. Which register values are reserved beyond the ranges of the register tables (00_scope.md R15, 01_architecture.md R53):
the rules each chapter states for values that depend on other state. -/

namespace Sys2Proof.Machine

/-- The FEC choices of each PHY code (03 R93). -/
def phyFecs (k : Nat) : List Nat :=
  ([[0], [0], [0], [2], [0, 1], [2], [2], [2], [2], [2], [2]][k]?).getD []

/-- The lane indices of its pipe that MAC `m` takes with a PHY code (03 R92). -/
def macSpan (m phy : Nat) : Nat × Nat := (m % 16 / 2, m % 16 / 2 + phyLanes phy)

/-- PRT_MACCFG[m] may hold a word (03 R92 to R94). -/
def macLegal (s : State) (m : Nat) (w : Word) : Bool :=
  let phy := bits w 27 24
  let pair := (phyFecs phy).contains (bits w 21 20)
  if !bit w 31 then pair
  else
    let others := (List.range 16).map (fun j => m / 16 * 16 + j) |>.filter (fun j => j != m && attached s j)
    let phyOf (j : Nat) : Nat := rf s (macCfg j) 27 24
    pair && phy != 0 && decide (m % 16 / 2 % phyLanes phy = 0) &&
      others.all (fun j => !overlap (macSpan m phy) (macSpan j (phyOf j))) &&
      decide (phyRate phy + (others.map (fun j => phyRate (phyOf j))).sum ≤ 400)

/-- PRT_LANECTL of lane `l` may hold a word (03 R95). -/
def laneLegal (s : State) (l : Nat) (w : Word) : Bool :=
  bits w 23 20 == 0 ||
    !((List.range 16).any (fun j => let m := l / 8 * 16 + j
      attached s m && decide ((macSpan m (rf s (macCfg m) 27 24)).1 ≤ l % 8) && decide (l % 8 < (macSpan m (rf s (macCfg m) 27 24)).2)))

/-- MSC_SCCFG[m][c] may hold a word (03 R102, R106, 17 R464): a SecY has one valid transmit channel. -/
def scLegal (s : State) (m c : Nat) (w : Word) : Bool :=
  !bit w 31 || (!macsecOff s && (!bit w 30 || !((List.range 64).any (fun j =>
    let x := rShow s (scCfg m j)
    j != c && bit x 31 && bit x 30 && bits x 26 24 == bits w 26 24))))

/-- No two-bit colour of a map is the reserved 3 (04 R147). -/
def coloursLegal (w : Word) : Bool := (List.range 16).all (fun e => bits w (2 * e + 1) (2 * e) != 3)

/-- A key profile of instance `i` with word `w` and extract lengths `ls` is legal (04 R142, 13 R351). -/
def profLegal (s : State) (i : Nat) (w : Word) (ls : List Nat) : Bool :=
  !bit w 31 || (match tgeoRec s (bits w 7 0) with
    | some g => g.inst == i && (if g.kind = 2 then decide (ls.sum = 8) else decide (1 + ls.sum ≤ keyBytes g))
    | none => false)

/-- The extract lengths of key profile `k` of instance `i` as they would be committed. -/
def profLens (s : State) (i k : Nat) : List Nat :=
  (List.range 8).map (fun e => bits (rShow s (0x1808004 + 0x100 * i + 0x40 * k + 4 * e)) 4 0)

/-- Partition `i` of 32, from BASE at [lo] and COUNT at [hi:16], lies whole below `lim` and clear of the other partitions. -/
def partLegal (s : State) (a i hi lo lim : Nat) (excl : Bool) (w : Word) : Bool :=
  let span (x : Word) : Nat × Nat := (bits x lo 0, bits x lo 0 + bits x hi 16)
  insInReset s i && decide ((span w).2 ≤ lim) &&
    (!excl || (List.range 32).all (fun j => j == i || !overlap (span w) (span (rv s (a + 4 * j)))))

/-- SNAP_BASE leaves room for the snapshots (05 R189). -/
def snapLegal (s : State) (i : Nat) (w : Word) : Bool := bits w 24 0 * 4096 + 2097152 ≤ instF s i (·.dramSize) * 1048576

/-- ITEM_QUOTA keeps the sum over all instances at 8,192 or below (05 R189). -/
def quotaLegal (s : State) (i : Nat) (w : Word) : Bool :=
  bits w 13 0 + (((List.range 32).filter (· != i)).map (fun j => rf s (0x2008000 + 4 * j) 13 0)).sum ≤ 8192

/-- A learn queue fits the instance's DRAM region (13 R367). -/
def lrnLegal (s : State) (i : Nat) (base log : Nat) : Bool := base * 4096 + 64 + 16 * 2 ^ log ≤ instF s i (·.dramSize) * 1048576

/-- The journal's ring is clear of every instance's region and of the steward area (18 R491). -/
def ringLegal (s : State) (base size : Nat) : Bool :=
  s.img.inst.all (fun r => !overlap (base, base + size) (r.dramBase, r.dramBase + r.dramSize)) &&
    decide (base + size ≤ (rv s 0x3E01040).toNat)

/-- Each byte of a timing word is at or above the JESD79-5 minimum (15 R422); words 1 and 3 to 6 hold 16-bit fields. -/
def timLegal (s : State) (ch set k : Nat) (w : Word) : Bool :=
  if k = 7 then (if set = 0 then decide (bits w 7 0 ≤ 2) else bits w 7 0 == 3)
  else
    let speed := if set = 0 then bits (rShow s (0x3E0901C + 0x100 * ch)) 7 0 else 3
    let m := Config.timMin (dramCode s) speed set k
    let fs := if k = 0 || k = 2 then [(31, 24), (23, 16), (15, 8), (7, 0)]
      else if k = 3 || k = 4 then [(31, 24), (23, 16), (15, 0)] else [(31, 16), (15, 0)]
    fs.all (fun f => decide (bits m f.1 f.2 ≤ bits w f.1 f.2))

/-- TRAPQ of INS_CFG (16 R443). -/
def trapqLegal (s : State) (i : Nat) (w : Word) : Bool :=
  let q := bits w 31 16
  q == 0xFFFF || (decide (q < instF s i (·.qCount)) && (hostPort s i).isSome && qPort s (instF s i (·.qBase) + q) == hostPort s i)

/-- The rules of blocks 9 to 15 for a word of the register at an offset. -/
def legalLow (s : State) (off : Nat) (w : Word) : Bool :=
  match blkOf off with
  | 9 => match arrIx off 0x808000 0x10000 64 with
    | some m =>
      if inCopy off = 0x8000 then macLegal s m w
      else if inCopy off = 0x8004 then laneLegal s (m / 2) w else true
    | none => true
  | 10 => match arrIx off 0xC08000 0x10 4096 with
    | some k => off % 16 != 0 || scLegal s (k / 64) (k % 64) w
    | none => true
  | 12 =>
    let t := rset s off w
    if (arrIx off 0x1008000 4 64).isSome then losslessOk (bits w 31 30) (bits w 23 16)
    else if ((arrIx off 0x1008100 8 512).isSome && off % 8 == 0) || off == 0x1009100 then decide (4608 ≤ sharedPool t)
    else true
  | 13 =>
    if (arrIx off 0x1408000 4 32).isSome then coloursLegal (w &&& 0xFFFF) && bits w 7 6 != 0 else true
  | 14 => match arrIx off 0x1808000 0x40 128, arrIx off 0x180A000 4 32, arrIx off 0x180A100 4 32 with
    | some k, _, _ =>
      let i := k / 4
      let j := (off - 0x1808000) % 0x40
      if j = 0 then profLegal s i w (profLens s i (k % 4))
      else profLegal s i (rShow s (0x1808000 + 0x100 * i + 0x40 * (k % 4)))
        ((profLens s i (k % 4)).set (j / 4 - 1) (bits w 4 0))
    | _, some i, _ => partLegal s 0x180A000 i 29 12 8192 false w
    | _, _, some i => (posyRec s (bits w 31 24)).any (fun r => r.inst == i)
    | _, _, _ => if (arrIx off 0x180A200 4 32).isSome || (arrIx off 0x180A300 4 128).isSome then coloursLegal w else true
  | 15 => match arrIx off 0x1C08000 0x10 64 with
    | some k => !rb s (0x1C08000 + 0x10 * k) 31 || (off % 16 == 0 && !bit w 31)
    | none => true
  | 25 => match arrIx off 0x3C08000 4 32 with
    | some i => partLegal s 0x3C08000 i 26 9 1024 false w
    | none => true
  | _ => true

/-- The rules of blocks 7, 8 and 16 to 24 for a word of the register at an offset. -/
def legalMid (s : State) (off : Nat) (w : Word) : Bool :=
  match blkOf off with
  | 7 =>
    if off = 0x408004 then ringLegal s (bits w 16 0) (rf s 0x408008 15 0)
    else if off = 0x408008 then ringLegal s (rf s 0x408004 16 0) (bits w 15 0)
    else if (arrIx off 0x408020 4 8).isSome then decide (bits w 15 0 + bits w 30 16 ≤ 65535) else true
  | 8 => if off = 0x481000 then bits w 2 0 == 0 else true
  | 16 => match arrIx off 0x2008000 4 32, arrIx off 0x2008100 4 32 with
    | some i, _ => quotaLegal s i w
    | _, some i => snapLegal s i w
    | _, _ => true
  | 20 => match arrIx off 0x3008000 4 32, arrIx off 0x3008080 4 32, arrIx off 0x3008100 4 32 with
    | some i, _, _ => partLegal s 0x3008000 i 26 9 1024 true w
    | _, some i, _ => partLegal s 0x3008080 i 25 8 512 true w
    | _, _, some i => bits w 16 0 == 0 || decide (bits w 16 0 < instF s i (·.dramSize))
    | _, _, _ => true
  | 21 => match arrIx off 0x3208000 0x10 16 with
    | some k =>
      if off % 16 != 0 then !poolValid s k
      else !poolValid s k || (!bit w 31 && (poolInst s k).all (insInReset s))
    | none => true
  | 22 => match arrIx off 0x3408000 4 255 with
    | some t => !bit w 31 || (tgeoRec s t).all (fun g => g.kind != 1)
    | none => true
  | 23 => match arrIx off 0x3808100 4 128, arrIx off 0x3808400 4 128 with
    | some k, _ =>
      !rb s off 31 && (!bit w 31 || lrnLegal s (k / 4) (rf s (0x3808400 + 4 * k) 24 0) (bits w 29 25))
    | _, some k => !rb s (0x3808100 + 4 * k) 31
    | _, _ => true
  | 24 => match arrIx off 0x3A88800 0x20 32, arrIx off 0x3A89000 0x40 64 with
    | some i, _ =>
      let a := 0x3A88800 + 0x20 * i
      if off = a + 12 then decide (bits w 16 0 + bits (rShow s (a + 16)) 16 0 ≤ instF s i (·.dramSize)) || bits (rShow s (a + 16)) 16 0 == 0
      else if off = a + 16 then decide (bits (rShow s (a + 12)) 16 0 + bits w 16 0 ≤ instF s i (·.dramSize)) || bits w 16 0 == 0
      else true
    | _, some _ => if off % 0x40 = 0x10 || off % 0x40 = 0x14 || off % 0x40 = 0x18 then decide (bits w 15 0 < bits w 31 16) else true
    | _, _ => true
  | _ => true

/-- The rules of blocks 27 to 29 for a word of the register at an offset. -/
def legalHigh (s : State) (off : Nat) (w : Word) : Bool :=
  match blkOf off with
  | 27 => match arrIx off 0x3E09000 4 512 with
    | some k => timLegal s (k / 64) (k / 16 % 2) (k % 16) w
    | none => true
  | 28 => match arrIx off 0x3F08000 0x20 1056 with
    | some k =>
      let j := (off - 0x3F08000) % 0x20
      if j = 0 then true
      else !rb s (0x3F08000 + 0x20 * k) 31 && (j != 4 || bits w 5 0 == 0) && (j != 12 || bits w 2 0 == 0)
    | none => true
  | 29 => match arrIx off 0x3F88000 4 32 with
    | some i => trapqLegal s i w
    | none => true
  | _ => true

/-- The register at an offset may be given a word: no field of it takes a reserved value (00 R15). -/
def legalAt (s : State) (off : Nat) (d : RegDesc) (w : Word) : Bool :=
  d.legal w && legalLow s off w && legalMid s off w && legalHigh s off w

/-- The expert registers a basic register sets and their words (01 R52); ING_FCBASIC is FCBASIC_WRITE's. -/
def basicSets (s : State) (off : Nat) (w : Word) : List (Nat × Word) :=
  match blkOf off with
  | 9 =>
    let m := copyOf off
    let phy := bits w 3 0
    [(macCfg m, w32 (bits w 8 8 * 2 ^ 31 + phy * 2 ^ 24 + (phyFecs phy).foldl max 0 * 2 ^ 20 + bits w 29 16))]
  | 13 =>
    let i := (off - 0x1400100) / 4
    [(0x1408000 + 4 * i, if bits w 1 0 = 0 then 0x0889 else if bits w 1 0 = 1 then 0x0080 else 0xAAAA)]
  | 16 =>
    let a := 0x2008000 + (off - 0x2000100)
    [(a, setBits (rv s a) 31 30 (bits w 0 0 * 2))]
  | 24 =>
    let n := (off - 0x3A00100) / 4
    let r := bits w 18 0
    [(0x3A88004 + 0x10 * n, w32 (125 * r)),
     (0x3A88008 + 0x10 * n, setBits (rShow s (0x3A88008 + 0x10 * n)) 15 0 (max 150 (cdiv (5 * r) 256)))]
  | 27 =>
    let ch := (off - 0x3E00100) / 4
    (List.range 16).map (fun k => (0x3E09000 + 0x100 * ch + 0x40 * (k / 8) + 4 * (k % 8),
      timWord (dramCode s) (if k / 8 = 0 then bits w 1 0 else 3) (k / 8) (k % 8)))
  | _ => []

end Sys2Proof.Machine
end

