-- ==== Sys2Proof/Machine/RegCmd.lean ====
section
/-! DEFINITION. Register accesses: the order in which a write is judged (00_scope.md R10 to R19, 01_architecture.md R49 to R53,
20_register_map.md R519 to R528), the command a command register carries out, the commit of shadow values, IDLE_REQ, and the
indirect port of a virtual function. -/

namespace Sys2Proof.Machine

/-- The state a meaning leads to. -/
def ran (x : Result) (s : State) : State := match x with
  | .next t => t
  | _ => s

/-- The commands of a word, in ascending order of their bits (00 R11). -/
def cmdBits (w : Word) (l : List (State → Result)) (s : State) : State :=
  foldS l.zipIdx (fun (p : (State → Result) × Nat) s => if bit w p.2 then ran (p.1 s) s else s) s

/-- INS_FABORT names a target its KIND allows (16 R443). -/
def fabWordOk (w : Word) : Bool :=
  match bits w 29 28 with
  | 0 => decide (bits w 15 0 ≤ 32) && bits w 20 16 == 0
  | 1 => bits w 15 8 == 0 && bits w 20 16 == 0
  | 2 => bits w 15 13 == 0 && bits w 7 7 == 0 && bits w 3 3 == 0 && bits w 20 16 == 0
  | _ => bits w 15 2 == 0

/-- GLB_EXPDENY: bits that name a block whose EXPSUM bit is 1 make the write rejected (R528). -/
def expdeny (v : Word) (s : State) : State :=
  if (w32 (blkSum s (fun k => k.expert)) &&& v) != 0 then cfgReject 0 0 s else rset s 0x1028 (rv s 0x1028 ||| (v &&& 0x3FFFFFFF))

/-- GLB_EXPDENY (R528). -/
def execGlbExpdeny (r : Req) (v : Word) (s : State) : Result := .next (asked r 0x1028 (expdeny v) s)

/-- The commands of blocks 0 to 8. -/
def cmdLow (r : Req) (off : Nat) (w : Word) (s : State) : Option Result :=
  let go := bit w 31
  let op := bits w 30 28
  if off = 0x1028 then some (execGlbExpdeny r w s)
  else if off = 0x181100 then if !go then none else some (if op = 1 then execRstWarm r s else execRstSteward r s)
  else if off = 0x181104 then if bit w 0 then some (execHbKick r s) else none
  else if off = 0x201500 then
    if go then some (execArbAdvance r (Fin.ofNat 4 (bits w 25 24)) (Fin.ofNat 128 (bits w 6 0)) s) else none
  else if off = 0x281000 then
    if !go then none
    else some (if op = 1 then execNewchal r s else if op = 2 then execSubmit r s else if op = 3 then execSecLock r s
      else execAttest r (bit w 8) (Fin.ofNat 32 (bits w 4 0)) s)
  else if off = 0x382010 || off = 0x382014 then some (execErcAck r (Fin.ofNat 2 (off / 4)) w s)
  else if off = 0x401200 then some (.next (cmdBits w [execJnlStart r, execJnlStop r, execJnlTrigger r, execJnlRearm r] s))
  else if off = 0x401300 then some (.next (cmdBits w [execRpStart r, execRpContinue r, execRpStop r] s))
  else if off = 0x48100C then
    if !go then none
    else if op = 1 then
      let (l, s) := freeBytes (mbLen s) s
      some (execMbLoad r l s)
    else some (execMbMsg r s)
  else none

/-- The commands of blocks 9 to 15 and 25. -/
def cmdMid (r : Req) (off : Nat) (w : Word) (s : State) : Option Result :=
  let go := bit w 31
  let op := bits w 30 28
  let m := Fin.ofNat 64 (bits w 27 22)
  let c := Fin.ofNat 64 (bits w 21 16)
  let an := Fin.ofNat 4 (bits w 13 12)
  let pipe := Fin.ofNat 4 (copyOf off)
  if blkOf off = 9 && inCopy off = 0x1000 then
    let l := Fin.ofNat 32 (copyOf off / 2)
    some (.next (cmdBits w [execRetrain r l, execEyeScan r l] s))
  else if off = 0xC01040 then
    if !go then none
    else some (if op = 1 then execMscInstall r m c an s else if op = 2 then execMscDelete r m c an s
      else if op = 3 then execTxSwitch r m c an s else if op = 4 then execReadPn r m c an s else execReadStats r m c an s)
  else if off = 0xE08014 then some (.next (cmdBits w [execPtpSet r, execPtpStep r] s))
  else if blkOf off = 12 && onBasic off then some (execFcbasicWrite r (Fin.ofNat 64 ((off - 0x1000100) / 4)) w s)
  else if blkOf off = 13 && inCopy off = 0x1C00 then if bit w 0 then some (execFragFlush r pipe s) else none
  else if blkOf off = 14 && inCopy off = 0x2004 then if bit w 0 then some (execActionWrite r pipe s) else none
  else if off = 0x3C01004 then if bit w 0 then some (execTemplateWrite r s) else none
  else match (if off % 16 = 0 then arrIx off 0x1401000 0x10 32 else none), (if off % 16 = 0 then arrIx off 0x1C08000 0x10 64 else none) with
    | some i, _ =>
      let i := Fin.ofNat 32 i
      let s1 := if go then ran (execEpochCommit r i s) s else s
      some (.next (if bit w 30 then ran (execEpochRetire r i (Fin.ofNat 65536 (bits w 15 0)) s1) s1
        else rset s1 off (w32 (bits w 15 0))))
    | _, some k =>
      if go then
        let (x, s) := drawPick 2 s
        some (execPatSetEnable r (Fin.ofNat 64 k) w (x == 1) s)
      else none
    | _, _ => none

/-- The debugger's commands (06 R213). -/
def cmdDebug (r : Req) (w : Word) (s : State) : Result :=
  let sc := Fin.ofNat 3 (bits w 27 26)
  let c := Fin.ofNat 256 (bits w 25 18)
  let t := Fin.ofNat 8 (bits w 17 15)
  let x := Fin.ofNat 256 (bits w 14 7)
  let th : Thr := ⟨Fin.ofNat 132 (bits w 25 18), t⟩
  match bits w 30 28 with
  | 1 => execStopHold r sc c t x s
  | 2 => execStopYield r sc c t x s
  | 3 => execDebugResume r sc c t x s
  | 4 => execDebugStep r sc c t x s
  | 5 => if bits w 25 18 < 132 then execRegRead r th s else .next (asked r 0x2807804 (dbgSts r 1) s)
  | _ => if bits w 25 18 < 132 then execRegWrite r th s else .next (asked r 0x2807804 (dbgSts r 1) s)

/-- The table commands (13 R371). -/
def cmdTable (r : Req) (w : Word) (s : State) : Result :=
  let t := Fin.ofNat 256 (bits w 7 0)
  let p := Fin.ofNat 16 (bits w 23 20)
  match bits w 30 27 with
  | 1 => execTblInsert r t p s
  | 2 => execTblUpdate r t p s
  | 3 => execTblDelete r t p s
  | 4 => execTblLookup r t p s
  | 5 => execTblHitread r t p (bit w 26) s
  | 6 => execAmWrite r t p s
  | 7 => execAmInval r t p s
  | _ => execAmRead r t p s

/-- The commands of blocks 16 to 23. -/
def cmdUnit (r : Req) (off : Nat) (w : Word) (s : State) : Option Result :=
  let go := bit w 31
  let op := bits w 30 28
  if off = 0x2001110 then
    let i := Fin.ofNat 32 (bits w 12 8)
    if bits w 1 0 = 3 then some (.next (cfgReject 16 0 s))
    else if bit w 0 then some (execHostItemCreate r i s)
    else if bit w 1 then some (execHostMsgSend r i s) else none
  else if off = 0x2807804 then if go then some (cmdDebug r w s) else none
  else if off = 0x2C05020 then
    if !go then none
    else
      let i := Fin.ofNat 32 (bits w 20 16)
      let k := Fin.ofNat 128 (bits w 6 0)
      some (if op = 1 then execCryKeyInstall r i k (bit w 24) s else execCryKeyDelete r i k s)
  else if off = 0x3001804 then
    if !go then none
    else some (if op = 1 then execLckAcquire r s else if op = 2 then execLckRelease r s else execLckForce r s)
  else if off = 0x3401000 then if go then some (cmdTable r w s) else none
  else match (if off % 16 = 0 then arrIx off 0x3208000 0x10 16 else none) with
    | some k => if go then some (execPoolEnable r (Fin.ofNat 16 k) w s) else none
    | none => none

/-- The commands of blocks 24 to 29. -/
def cmdHigh (r : Req) (off : Nat) (w : Word) (s : State) : Option Result :=
  let go := bit w 31
  let op := bits w 30 28
  let i := Fin.ofNat 32 (bits w 4 0)
  if off = 0x3A0410C then
    some (.next (
      let s1 := if bit w 0 then ran (execGclWrite r s) s else s
      if bit w 1 then ran (execGclRead r (bit w 2) s1) s1 else s1))
  else if off = 0x3F81000 then
    if !go then none
    else some (if op = 1 then execInsCreate r i s else if op = 2 then execInsStart r i s else if op = 3 then execInsReset r i s
      else execInsRemove r i s)
  else if off = 0x3F81200 then
    if !go then none
    else if !fabWordOk w then some (.next (cfgReject 29 0 s))
    else some (match bits w 29 28 with
      | 0 => execFabortDma r (Fin.ofNat 33 (bits w 15 0)) s
      | 1 => execFabortPosy r (Fin.ofNat 256 (bits w 7 0)) s
      | 2 => execFabortContext r (Fin.ofNat 32 (bits w 12 8)) (Fin.ofNat 8 (bits w 6 4)) (Fin.ofNat 8 (bits w 2 0)) s
      | _ => execFabortLearnq r (Fin.ofNat 32 (bits w 20 16)) (Fin.ofNat 4 (bits w 1 0)) s)
  else if off = 0x3F81300 then
    if go then some (execHostEvent r (Fin.ofNat 32 (bits w 12 8)) (Fin.ofNat 256 (bits w 7 0)) s) else none
  else match arrIx off 0x3A04200 4 123, arrIx off 0x3E03000 4 8, arrIx off 0x3F05000 4 1056, (if off % 32 = 0 then arrIx off 0x3F08000 0x20 1056 else none) with
    | some n, _, _, _ =>
      let q := Fin.ofNat 64 n
      some (.next (cmdBits (if n < 64 then w else w &&& 1)
        [execTmFlush r (Fin.ofNat 128 n), execGateCommit r q, execGateOff r q, execGateCancel r q] s))
    | _, some c, _, _ =>
      let c := Fin.ofNat 8 c
      some (.next (cmdBits w [execDmcFreq r c, execDmcEnter2 r c, execDmcExit r c] s))
    | _, _, some k, _ => some (execDoorbell r (Fin.ofNat 33 (k / 32)) (Fin.ofNat 32 (k % 32)) (Fin.ofNat 131072 (bits w 16 0)) s)
    | _, _, _, some k =>
      some (if go then execRingEnable r (Fin.ofNat 33 (k / 32)) (Fin.ofNat 32 (k % 32)) w s
        else .next (rcfgWrite (k / 32) (k % 32) w s))
    | _, _, _, _ => none

/-- The command that a write of `w` to a register carries out, as the row of that command; none where the register has no behaviour
of its own or the word starts nothing. The bytes of an image and the outcome of reading an automaton, which the write itself does
not bring, are free. -/
def regCmd (r : Req) (off : Nat) (w : Word) (s : State) : Option Result :=
  match cmdLow r off w s, cmdMid r off w s, cmdUnit r off w s, cmdHigh r off w s with
  | some x, _, _, _ => some x
  | _, some x, _, _ => some x
  | _, _, some x, _ => some x
  | _, _, _, x => x

/-- What a policer's state does when its registers change (04 R149): VALID from 0 to 1 fills both buckets and starts now; a change
of rates or bursts keeps the token counts, each clamped to the new burst. -/
def polWritten (off : Nat) (old : Word) (s : State) : State :=
  match arrIx (inCopy off) 0x40000 0x10 32768 with
  | some x =>
    let p := copyOf off
    let b := polBursts s p x
    if off % 16 = 0 then
      if !bit old 31 && rb s off 31 then setPol p x { last := s.clk.fab, tc := b.1, t2 := b.2 } s else s
    else setPol p x { polOf s p x with tc := min b.1 (polOf s p x).tc, t2 := min b.2 (polOf s p x).t2 } s
  | none => s

/-- What follows an accepted write of a register, whose word was `old`. -/
def regAfter (off : Nat) (old : Word) (s : State) : State :=
  match blkOf off with
  | 12 =>
    if onExpert off && off != 0x1009104 then
      xoffSweep (foldS (List.range 512) (fun k s => xoffJudge (k / 8) (k % 8) s) s)
    else s
  | 14 => polWritten off old s
  | 16 => match arrIx off 0x2008000 4 32 with
    | some i => ctxServe i 8192 s
    | none => s
  | 23 => match arrIx off 0x3808100 4 128 with
    | some k => if rb s off 31 then lrnZero (k / 4) (k % 4) s else s
    | none => s
  | _ => s

/-- An H-class register whose commit point is now (13 R371, 15 R422): aging is off, or the channel is not trained. -/
def hNow (off : Nat) (s : State) : Bool :=
  match arrIx off 0x3408000 4 255, arrIx off 0x3E09000 4 512, arrIx off 0x3E00100 4 8 with
  | some _, _, _ => !rb s off 31
  | _, some k, _ => !rb s (chSts (k / 64)) 30
  | _, _, some c => !rb s (chSts c) 30
  | _, _, _ => false

/-- A register takes a word by its class (00 R16). -/
def regTake (cls : RCls) (key off : Nat) (w : Word) (s : State) : State :=
  match cls with
  | .h =>
    let s := { s with regs := { s.regs with shadow := mins s.regs.shadow key w } }
    if hNow off s then hCommit key s else s
  | _ => rset s key w

/-- A write of the gate registers while their list is PENDING is rejected with CFG_BUSY (14 R390). -/
def gateHeld (s : State) (off : Nat) : Bool :=
  match arrIx off 0x3A8A000 0x20 64 with
  | some n => (gateOf s n).pend.isSome
  | none => false

/-- CFG_BUSY of the block copy that holds an offset (01 R49). -/
def cfgBusy (off : Nat) (s : State) : State := blkMod s (blkOf off) (copyOf off) (fun k => { k with cfgBusy := true })

/-- CFG_REJECT of the block copy that holds an offset (01 R49). -/
def cfgRej (off : Nat) (s : State) : State := cfgReject (blkOf off) (copyOf off) s

/-- A write of a basic register (01 R51, R52): its fields and the expert fields it sets take effect together. -/
def basicWrite (off : Nat) (d : RegDesc) (w : Word) (s : State) : State :=
  let b := blkOf off
  let sets := basicSets s off w
  let ok := d.legal w && sets.all (fun e => b == 27 || (match regRow e.1 with
    | some x => legalAt s e.1 x e.2
    | none => false))
  if (blkGet s b (copyOf off)).expert then blkMod s b (copyOf off) (fun k => { k with cfgMode := true })
  else if !ok then cfgRej off s
  else if d.cls = .s && !blkIdle s b (copyOf off) then cfgBusy off s
  else
    let s := regTake d.cls off off (d.apply (rShow s off) w) s
    foldS sets (fun (e : Nat × Word) s => regAfter e.1 (rv s e.1) (regTake d.cls e.1 e.1 e.2 s)) s

/-- A write of a register that has no behaviour of its own (00 R15, R16, 01 R51). -/
def plainWrite (r : Req) (off : Nat) (d : RegDesc) (w : Word) (s : State) : State :=
  let k := regKey r off
  let old := rShow s k
  let new := d.apply old w
  if !legalAt s off d w then cfgRej off s
  else if gateHeld s off then cfgBusy off s
  else if d.cls = .s && !blkIdle s (blkOf off) (copyOf off) then cfgBusy off s
  else regAfter off old (expertSet off (regTake d.cls k off new s))

/-- A write of BLK_CFGSTS: its sticky bits clear where 1 is written (01 R49). -/
def cfgstsWrite (off : Nat) (w : Word) (s : State) : State :=
  blkMod s (blkOf off) (copyOf off) (fun k => { k with
    cfgBusy := k.cfgBusy && !bit w 0, cfgReject := k.cfgReject && !bit w 1, cfgMode := k.cfgMode && !bit w 2 })

/-- Operations of a block copy are in flight (01 R49). What counts as one for each block is DEDUCED: commands of shared units,
atomic operations, frees, items that threads execute, spill transfers, DRAM requests and scans. -/
def blkBusy (s : State) (b : Nat) : Bool :=
  match b with
  | 15 => s.hif.patQ.any (fun e => !e.2.isEmpty)
  | 18 => s.cores.thr.any (fun e => e.2.entry.isSome)
  | 19 => s.cpx.ctx.any (fun e => e.2.cmd.isSome)
  | 20 => !s.lck.atoms.isEmpty
  | 21 => !s.bpm.frees.isEmpty
  | 24 => s.tm.qs.any (fun e => e.2.pkts.any (fun p => p.place == 1 || p.place == 3))
  | 27 => s.dmc.sub.any (fun e => !(e.2.q ++ e.2.wq ++ e.2.hold).isEmpty)
  | _ => false

/-- A write of IDLE_REQ (01 R49, R50): 1 makes a block in RUN DRAINING, or IDLE where nothing is in flight; 0 returns to RUN only a
block that IDLE_REQ made DRAINING or IDLE. STATE of JNL follows the journal alone (18 R491). -/
def idleReq (b c : Nat) (v : Bool) (s : State) : State :=
  let busy := blkBusy s b
  blkMod s b c (fun k =>
    let k := { k with idleReq := v }
    if b = 7 then k
    else if v then match k.st with
      | .run => { k with st := if busy then .draining else .idle, byReq := true }
      | _ => k
    else match k.st with
      | .draining => { k with st := .run, byReq := false }
      | .idle => if k.byReq then { k with st := .run, byReq := false } else k
      | _ => k)

/-- Where BLK_STATE of a block copy lies (R519, 01 R49). -/
def stateOff (b c : Nat) : Nat := blkStart b + (match blkStride b with
  | some st => st * c
  | none => 0) + 4

/-- IDLE_REQ_WRITE (01 R50). A copy that the block does not have is no register's. -/
def execIdleReqWrite (r : Req) (b : Fin 30) (c : Fin 64) (v : Bool) (s : State) : Result :=
  .next (if c.val < blkCopies b.val then asked r (stateOff b.val c.val) (idleReq b.val c.val v) s else s)

/-- BLOCK_DRAIN_DONE: a DRAINING block with nothing left in flight enters IDLE (01 R50). -/
def execBlockDrainDone (b : Fin 30) (c : Fin 64) (s : State) : Result :=
  .next (if decide ((blkGet s b.val c.val).st = .draining) && !blkBusy s b.val then
      blkMod s b.val c.val (fun k => { k with st := .idle })
    else s)

/-- The commit point of an H-class register is now, where no row of its own brings it (03 R122, 05 R189): that of MSC is a frame
boundary of the port, that of DSP_DLCFG a tick boundary of the list. -/
def hPoint (off : Nat) (s : State) : Bool :=
  match blkOf off with
  | 10 => true
  | 16 => match arrIx off 0x2008800 4 16 with
    | some l => s.clk.fab % dlTick s l == 0
    | none => false
  | _ => hNow off s

/-- H_FIELD_COMMIT: the shadow value of an H-class register takes effect at its commit point (00 R16). Those of TM commit in
TM_COMMIT, those of CLS in EPOCH_COMMIT, those of aging with a sweep and those of timing with a level change. -/
def execHFieldCommit (off : Nat) (s : State) : Result := .next (if hPoint off s then hCommit off s else s)

/-- A write with all byte enables, at an offset the requester reaches. -/
def regWriteDo (r : Req) (off : Nat) (w : Word) (s : State) : State :=
  if isHdr off then
    if inCopy off = 0 then cfgstsWrite off w s else idleReq (blkOf off) (copyOf off) (bit w 8) s
  else match regRow off with
    | none => s
    | some d =>
      if expertDenied s off then accErr r 5 off s
      else match (if d.legal w && !cmdBusy r off s then regCmd r off w s else none) with
        | some x => ran x s
        | none =>
          if cmdBusy r off s then cfgRej off s
          else if onBasic off then (if blkOf off = 12 then ran (execFcbasicWrite r (Fin.ofNat 64 ((off - 0x1000100) / 4)) w s) s
            else basicWrite off d w s)
          else plainWrite r off d w s

/-- A write of the MSI-X structures of a function, at an offset from its table: a plain write (R521). -/
def msixWrite (f off : Nat) (be : BitVec 4) (w : Word) (s : State) : State :=
  let m := ((List.range 4).map (fun k => if be.getLsbD k then 255 * 256 ^ k else 0)).sum
  msixSet f off ((msixWord s f off &&& ~~~(w32 m)) ||| (w &&& w32 m)) s

/-- A write at a BAR0 offset of the physical function's map (00 R12, R13, 20 R521, R526, R528). -/
def regWrite (r : Req) (off : Nat) (be : BitVec 4) (w : Word) (s : State) : State :=
  if decide (0x40000 ≤ off) && decide (off < 0x42040) then
    match r with
    | .pf => if off < 0x42000 then msixWrite 0 (off - 0x40000) be w s else s
    | .steward => if off < 0x42000 then msixWrite 0 (off - 0x40000) be w s else s
    | _ => accErr r 3 off s
  else if be ≠ 15 then accErr r 1 off s
  else match access r off true s with
    | some c => accErr r c off s
    | none => regWriteDo r off w s

/-- Keys of GLB_IAADDR and GLB_IASTS of a virtual function (R522), at offsets of the map that hold no register. -/
def iaAddr (v : Fin 32) : Nat := reqKey (.vf v) 0x7F00
def iaSts (v : Fin 32) : Nat := reqKey (.vf v) 0x7F04

/-- OFFSET of the indirect port. -/
def iaOff (v : Fin 32) (s : State) : Nat := bits (rv s (iaAddr v)) 25 2 * 4

/-- An access of GLB_IADATA ends: LAST is set and OFFSET advances with AUTOINC (R523). -/
def iaEnd (v : Fin 32) (last : Nat) (s : State) : State :=
  let s := rset s (iaSts v) (w32 last)
  if rb s (iaAddr v) 31 then rsetF s (iaAddr v) 25 2 (rf s (iaAddr v) 25 2 + 1) else s

/-- A function whose FLR runs answers reads with 0 and ignores writes (16 R440). -/
def flrRuns (v : Fin 32) (s : State) : Bool := mget s.ctl.flr (v.val + 1) false

/-- IADATA_READ: a read of GLB_IADATA reads the register at OFFSET as the function's requester, or reports OUTSIDE (R523, R524). -/
def execIadataRead (v : Fin 32) (s : State) : Result :=
  let off := iaOff v s
  .next (if flrRuns v s then emit (.readData (.vf v) 0) s
    else match access (.vf v) off false s with
      | some c => iaEnd v 1 (emit (.readData (.vf v) 0) (accErr (.vf v) c off s))
      | none => iaEnd v 0 (regReadDo (.vf v) off s))

/-- IADATA_WRITE: a write of GLB_IADATA writes the register at OFFSET as the function's requester, or reports OUTSIDE; with fewer
than four byte enables it is ignored and reports NARROW (R523, R524). -/
def execIadataWrite (v : Fin 32) (be : BitVec 4) (w : Word) (s : State) : Result :=
  let off := iaOff v s
  .next (if flrRuns v s then s
    else if be ≠ 15 then iaEnd v 2 (accErr (.vf v) 1 off s)
    else match access (.vf v) off true s with
      | some c => iaEnd v 1 (accErr (.vf v) c off s)
      | none => iaEnd v 0 (regWriteDo (.vf v) off w s))

/-- An access error at an offset of a virtual function's window that names no register of the map: OFFSET, which is one of the
map, is free. -/
def winErr (v : Fin 32) (cause : Nat) (s : State) : State :=
  let (x, s) := drawWord s
  accErr (.vf v) cause (bits x 25 2 * 4) s

/-- A write in the window of a virtual function (R522). -/
def winWrite (v : Fin 32) (off : Nat) (be : BitVec 4) (w : Word) (s : State) : State :=
  let r : Req := .vf v
  let f := v.val + 1
  if flrRuns v s then s
  else if decide (0x8000 ≤ off) && decide (off < 0x8300) then msixWrite f (off - 0x8000) be w s
  else if decide (0x9000 ≤ off) && decide (off < 0x9008) then s
  else if off = 0x4004 then ran (execIadataWrite v be w s) s
  else if off = 0x4000 then
    if be ≠ 15 then winErr v 1 s else rset s (iaAddr v) (w &&& 0x83FFFFFC)
  else if off = 0x10 || off = 0x14 then regWrite r (off + 0x1000) be w s
  else match arrIx off 0x1000 4 32 with
    | some k => regWrite r (0x3F05000 + 0x80 * f + 4 * k) be w s
    | none =>
      if off = 0 || off = 4 || off = 0x4008 || (arrIx off 0x2000 4 32).isSome then (if be ≠ 15 then winErr v 1 s else s)
      else winErr v 2 s

/-- REGISTER_WRITE: a write of a register, at an offset of the requester's own BAR0 (00 R10 to R18, R519 to R522): of the map, or for
a virtual function of its window. While an FLR of the physical function runs, its writes are ignored (16 R440). -/
def execRegisterWrite (r : Req) (off : Nat) (be : BitVec 4) (v : Word) (s : State) : Result :=
  .next (match r with
    | .vf f => winWrite f off be v s
    | .pf => if mget s.ctl.flr 0 false then s else regWrite .pf off be v s
    | _ => regWrite r off be v s)

end Sys2Proof.Machine
end

