-- ==== Sys2Proof/Machine/Dispatch.lean ====
section
/-! DEFINITION. The meaning of every command: one arm per constructor of Instr, each a direct call of the command's own
meaning. -/

namespace Sys2Proof.Machine

def exec (i : Instr) (s : State) : Host.Outcome State Fault Refusal :=
  match i with
  | .lckAcquire r => Sys2Proof.Machine.execLckAcquire r s
  | .lckRelease r => Sys2Proof.Machine.execLckRelease r s
  | .lckForce r => Sys2Proof.Machine.execLckForce r s
  | .insCreate r inst => Sys2Proof.Machine.execInsCreate r inst s
  | .insStart r inst => Sys2Proof.Machine.execInsStart r inst s
  | .insReset r inst => Sys2Proof.Machine.execInsReset r inst s
  | .insRemove r inst => Sys2Proof.Machine.execInsRemove r inst s
  | .hostEvent r inst x => Sys2Proof.Machine.execHostEvent r inst x s
  | .fabortDma r f => Sys2Proof.Machine.execFabortDma r f s
  | .fabortPosy r x => Sys2Proof.Machine.execFabortPosy r x s
  | .fabortContext r k u x => Sys2Proof.Machine.execFabortContext r k u x s
  | .fabortLearnq r inst p => Sys2Proof.Machine.execFabortLearnq r inst p s
  | .newchal r => Sys2Proof.Machine.execNewchal r s
  | .submit r => Sys2Proof.Machine.execSubmit r s
  | .secLock r => Sys2Proof.Machine.execSecLock r s
  | .attest r scope inst => Sys2Proof.Machine.execAttest r scope inst s
  | .arbAdvance r k v => Sys2Proof.Machine.execArbAdvance r k v s
  | .registerWrite r off be v => Sys2Proof.Machine.execRegisterWrite r off be v s
  | .idleReqWrite r b c v => Sys2Proof.Machine.execIdleReqWrite r b c v s
  | .blockDrainDone b c => Sys2Proof.Machine.execBlockDrainDone b c s
  | .hFieldCommit off => Sys2Proof.Machine.execHFieldCommit off s
  | .frameReceive m fr coding corr unc => Sys2Proof.Machine.execFrameReceive m fr coding corr unc s
  | .flowctlFrameReceive m fr => Sys2Proof.Machine.execFlowctlFrameReceive m fr s
  | .pauseExpire n c => Sys2Proof.Machine.execPauseExpire n c s
  | .ctxHoldExpire inst => Sys2Proof.Machine.execCtxHoldExpire inst s
  | .flowctlFrameSend n => Sys2Proof.Machine.execFlowctlFrameSend n s
  | .flowctlRepeat n => Sys2Proof.Machine.execFlowctlRepeat n s
  | .localFault m => Sys2Proof.Machine.execLocalFault m s
  | .laneLossOfLock l => Sys2Proof.Machine.execLaneLossOfLock l s
  | .retrain r l => Sys2Proof.Machine.execRetrain r l s
  | .retrainDone l => Sys2Proof.Machine.execRetrainDone l s
  | .eyeScan r l => Sys2Proof.Machine.execEyeScan r l s
  | .eyeScanDone l h w => Sys2Proof.Machine.execEyeScanDone l h w s
  | .mscInstall r m c an => Sys2Proof.Machine.execMscInstall r m c an s
  | .mscDelete r m c an => Sys2Proof.Machine.execMscDelete r m c an s
  | .txSwitch r m c an => Sys2Proof.Machine.execTxSwitch r m c an s
  | .readPn r m c an => Sys2Proof.Machine.execReadPn r m c an s
  | .readStats r m c an => Sys2Proof.Machine.execReadStats r m c an s
  | .ptpSet r => Sys2Proof.Machine.execPtpSet r s
  | .ptpStep r => Sys2Proof.Machine.execPtpStep r s
  | .ptpTimeLatch r => Sys2Proof.Machine.execPtpTimeLatch r s
  | .tsfPop r m => Sys2Proof.Machine.execTsfPop r m s
  | .ppsOutPulse => Sys2Proof.Machine.execPpsOutPulse s
  | .ppsInCapture => Sys2Proof.Machine.execPpsInCapture s
  | .sync10mCapture => Sys2Proof.Machine.execSync10mCapture s
  | .fcbasicWrite r n v => Sys2Proof.Machine.execFcbasicWrite r n v s
  | .frameTransmit n => Sys2Proof.Machine.execFrameTransmit n s
  | .parsePass pipe => Sys2Proof.Machine.execParsePass pipe s
  | .classifyPacket pipe => Sys2Proof.Machine.execClassifyPacket pipe s
  | .scanVerdict pipe v => Sys2Proof.Machine.execScanVerdict pipe v s
  | .fragEntryExpire pipe => Sys2Proof.Machine.execFragEntryExpire pipe s
  | .fragFlush r pipe => Sys2Proof.Machine.execFragFlush r pipe s
  | .epochCommit r inst => Sys2Proof.Machine.execEpochCommit r inst s
  | .epochCommitPending inst => Sys2Proof.Machine.execEpochCommitPending inst s
  | .epochRetire r inst e => Sys2Proof.Machine.execEpochRetire r inst e s
  | .actionWrite r pipe => Sys2Proof.Machine.execActionWrite r pipe s
  | .patSetEnable r set v good => Sys2Proof.Machine.execPatSetEnable r set v good s
  | .templateWrite r => Sys2Proof.Machine.execTemplateWrite r s
  | .egressEdit => Sys2Proof.Machine.execEgressEdit s
  | .governorFrame => Sys2Proof.Machine.execGovernorFrame s
  | .govWindow => Sys2Proof.Machine.execGovWindow s
  | .hostItemCreate r inst => Sys2Proof.Machine.execHostItemCreate r inst s
  | .hostMsgSend r inst => Sys2Proof.Machine.execHostMsgSend r inst s
  | .operandArrive e slot => Sys2Proof.Machine.execOperandArrive e slot s
  | .msgWaitExpire e => Sys2Proof.Machine.execMsgWaitExpire e s
  | .ctxWaitTimeout inst pipe => Sys2Proof.Machine.execCtxWaitTimeout inst pipe s
  | .dispatch => Sys2Proof.Machine.execDispatch s
  | .contextRelease => Sys2Proof.Machine.execContextRelease s
  | .timerFire l => Sys2Proof.Machine.execTimerFire l s
  | .deadlockDetect x => Sys2Proof.Machine.execDeadlockDetect x s
  | .coreParity t => Sys2Proof.Machine.execCoreParity t s
  | .spareJoin spare bad => Sys2Proof.Machine.execSpareJoin spare bad s
  | .stallWdogExpire t => Sys2Proof.Machine.execStallWdogExpire t s
  | .faultDispTimeout t => Sys2Proof.Machine.execFaultDispTimeout t s
  | .fetchLineRewrite cluster line ok => Sys2Proof.Machine.execFetchLineRewrite cluster line ok s
  | .stopHold r scope core thread posy => Sys2Proof.Machine.execStopHold r scope core thread posy s
  | .stopYield r scope core thread posy => Sys2Proof.Machine.execStopYield r scope core thread posy s
  | .debugResume r scope core thread posy => Sys2Proof.Machine.execDebugResume r scope core thread posy s
  | .debugStep r scope core thread posy => Sys2Proof.Machine.execDebugStep r scope core thread posy s
  | .regRead r t => Sys2Proof.Machine.execRegRead r t s
  | .regWrite r t => Sys2Proof.Machine.execRegWrite r t s
  | .nop th f raw => Sys2Proof.Machine.execNop th f raw s
  | .getw th f => Sys2Proof.Machine.execGetw th f s
  | .yield th f => Sys2Proof.Machine.execYield th f s
  | .fence th f => Sys2Proof.Machine.execFence th f s
  | .lexit th f => Sys2Proof.Machine.execLexit th f s
  | .mov th f => Sys2Proof.Machine.execMov th f s
  | .movi th f => Sys2Proof.Machine.execMovi th f s
  | .movih th f => Sys2Proof.Machine.execMovih th f s
  | .swap th f => Sys2Proof.Machine.execSwap th f s
  | .clr th f => Sys2Proof.Machine.execClr th f s
  | .add th f => Sys2Proof.Machine.execAdd th f s
  | .sub th f => Sys2Proof.Machine.execSub th f s
  | .and th f => Sys2Proof.Machine.execAnd th f s
  | .or th f => Sys2Proof.Machine.execOr th f s
  | .xor th f => Sys2Proof.Machine.execXor th f s
  | .shl th f => Sys2Proof.Machine.execShl th f s
  | .shr th f => Sys2Proof.Machine.execShr th f s
  | .sar th f => Sys2Proof.Machine.execSar th f s
  | .addc th f => Sys2Proof.Machine.execAddc th f s
  | .subc th f => Sys2Proof.Machine.execSubc th f s
  | .mul th f => Sys2Proof.Machine.execMul th f s
  | .min th f => Sys2Proof.Machine.execMin th f s
  | .max th f => Sys2Proof.Machine.execMax th f s
  | .minu th f => Sys2Proof.Machine.execMinu th f s
  | .maxu th f => Sys2Proof.Machine.execMaxu th f s
  | .rol th f => Sys2Proof.Machine.execRol th f s
  | .addi th f => Sys2Proof.Machine.execAddi th f s
  | .subi th f => Sys2Proof.Machine.execSubi th f s
  | .andi th f => Sys2Proof.Machine.execAndi th f s
  | .ori th f => Sys2Proof.Machine.execOri th f s
  | .xori th f => Sys2Proof.Machine.execXori th f s
  | .shli th f => Sys2Proof.Machine.execShli th f s
  | .shri th f => Sys2Proof.Machine.execShri th f s
  | .sari th f => Sys2Proof.Machine.execSari th f s
  | .roli th f => Sys2Proof.Machine.execRoli th f s
  | .cmp th f => Sys2Proof.Machine.execCmp th f s
  | .cmpi th f => Sys2Proof.Machine.execCmpi th f s
  | .tst th f => Sys2Proof.Machine.execTst th f s
  | .tsti th f => Sys2Proof.Machine.execTsti th f s
  | .not th f => Sys2Proof.Machine.execNot th f s
  | .neg th f => Sys2Proof.Machine.execNeg th f s
  | .sextb th f => Sys2Proof.Machine.execSextb th f s
  | .sexth th f => Sys2Proof.Machine.execSexth th f s
  | .zextb th f => Sys2Proof.Machine.execZextb th f s
  | .zexth th f => Sys2Proof.Machine.execZexth th f s
  | .bswap th f => Sys2Proof.Machine.execBswap th f s
  | .mulw th f => Sys2Proof.Machine.execMulw th f s
  | .mulwu th f => Sys2Proof.Machine.execMulwu th f s
  | .div th f => Sys2Proof.Machine.execDiv th f s
  | .divu th f => Sys2Proof.Machine.execDivu th f s
  | .rem th f => Sys2Proof.Machine.execRem th f s
  | .remu th f => Sys2Proof.Machine.execRemu th f s
  | .clz th f => Sys2Proof.Machine.execClz th f s
  | .ctz th f => Sys2Proof.Machine.execCtz th f s
  | .popc th f => Sys2Proof.Machine.execPopc th f s
  | .brev th f => Sys2Proof.Machine.execBrev th f s
  | .ld th f => Sys2Proof.Machine.execLd th f s
  | .ldx th f => Sys2Proof.Machine.execLdx th f s
  | .lds th f => Sys2Proof.Machine.execLds th f s
  | .ldsx th f => Sys2Proof.Machine.execLdsx th f s
  | .st th f => Sys2Proof.Machine.execSt th f s
  | .stx th f => Sys2Proof.Machine.execStx th f s
  | .hld th f => Sys2Proof.Machine.execHld th f s
  | .hldx th f => Sys2Proof.Machine.execHldx th f s
  | .hofs th f => Sys2Proof.Machine.execHofs th f s
  | .hlen th f => Sys2Proof.Machine.execHlen th f s
  | .htype th f => Sys2Proof.Machine.execHtype th f s
  | .br th f => Sys2Proof.Machine.execBr th f s
  | .bcc th f => Sys2Proof.Machine.execBcc th f s
  | .call th f => Sys2Proof.Machine.execCall th f s
  | .callr th f => Sys2Proof.Machine.execCallr th f s
  | .jmpr th f => Sys2Proof.Machine.execJmpr th f s
  | .ret th f => Sys2Proof.Machine.execRet th f s
  | .loop th f => Sys2Proof.Machine.execLoop th f s
  | .loopi th f => Sys2Proof.Machine.execLoopi th f s
  | .lea th f => Sys2Proof.Machine.execLea th f s
  | .send th f => Sys2Proof.Machine.execSend th f s
  | .sendi th f => Sys2Proof.Machine.execSendi th f s
  | .drop th f => Sys2Proof.Machine.execDrop th f s
  | .mirror th f => Sys2Proof.Machine.execMirror th f s
  | .recirc th f => Sys2Proof.Machine.execRecirc th f s
  | .tohost th f => Sys2Proof.Machine.execTohost th f s
  | .pktlen th f => Sys2Proof.Machine.execPktlen th f s
  | .edadd th f => Sys2Proof.Machine.execEdadd th f s
  | .edrd th f => Sys2Proof.Machine.execEdrd th f s
  | .alloc th f => Sys2Proof.Machine.execAlloc th f s
  | .free th f => Sys2Proof.Machine.execFree th f s
  | .freeApply => Sys2Proof.Machine.execFreeApply s
  | .cacheRefill k q => Sys2Proof.Machine.execCacheRefill k q s
  | .cacheSpill k q => Sys2Proof.Machine.execCacheSpill k q s
  | .poolEnable r k v => Sys2Proof.Machine.execPoolEnable r k v s
  | .bld th f => Sys2Proof.Machine.execBld th f s
  | .bst th f => Sys2Proof.Machine.execBst th f s
  | .ordx th f => Sys2Proof.Machine.execOrdx th f s
  | .mkitem th f => Sys2Proof.Machine.execMkitem th f s
  | .sendmsg th f => Sys2Proof.Machine.execSendmsg th f s
  | .lock th f => Sys2Proof.Machine.execLock th f s
  | .locki th f => Sys2Proof.Machine.execLocki th f s
  | .unlock th f => Sys2Proof.Machine.execUnlock th f s
  | .trylock th f => Sys2Proof.Machine.execTrylock th f s
  | .flock th f => Sys2Proof.Machine.execFlock th f s
  | .funlock th f => Sys2Proof.Machine.execFunlock th f s
  | .lkstat th f => Sys2Proof.Machine.execLkstat th f s
  | .lockGrant n => Sys2Proof.Machine.execLockGrant n s
  | .afadd th f => Sys2Proof.Machine.execAfadd th f s
  | .afand th f => Sys2Proof.Machine.execAfand th f s
  | .afor th f => Sys2Proof.Machine.execAfor th f s
  | .aswap th f => Sys2Proof.Machine.execAswap th f s
  | .acas th f => Sys2Proof.Machine.execAcas th f s
  | .atomicPerform k bad => Sys2Proof.Machine.execAtomicPerform k bad s
  | .evwait th f => Sys2Proof.Machine.execEvwait th f s
  | .evsig th f => Sys2Proof.Machine.execEvsig th f s
  | .clk th f => Sys2Proof.Machine.execClk th f s
  | .contextGrant k u => Sys2Proof.Machine.execContextGrant k u s
  | .cul th f => Sys2Proof.Machine.execCul th f s
  | .mtc th f => Sys2Proof.Machine.execMtc th f s
  | .mfc th f => Sys2Proof.Machine.execMfc th f s
  | .commandComplete k u n bad vd => Sys2Proof.Machine.execCommandComplete k u n bad vd s
  | .commandCancel k u n code started => Sys2Proof.Machine.execCommandCancel k u n code started s
  | .keyref th f => Sys2Proof.Machine.execKeyref th f s
  | .gcmEnc th f => Sys2Proof.Machine.execGcmEnc th f s
  | .gcmDec th f => Sys2Proof.Machine.execGcmDec th f s
  | .sha256 th f => Sys2Proof.Machine.execSha256 th f s
  | .lmsVerify th f => Sys2Proof.Machine.execLmsVerify th f s
  | .lkpLookup th f => Sys2Proof.Machine.execLkpLookup th f s
  | .lkpInsert th f => Sys2Proof.Machine.execLkpInsert th f s
  | .lkpUpdate th f => Sys2Proof.Machine.execLkpUpdate th f s
  | .lkpDelete th f => Sys2Proof.Machine.execLkpDelete th f s
  | .lkpHitread th f => Sys2Proof.Machine.execLkpHitread th f s
  | .patScan th f => Sys2Proof.Machine.execPatScan th f s
  | .police th f => Sys2Proof.Machine.execPolice th f s
  | .mtrCount th f => Sys2Proof.Machine.execMtrCount th f s
  | .cntread th f => Sys2Proof.Machine.execCntread th f s
  | .cntclr th f => Sys2Proof.Machine.execCntclr th f s
  | .copy th f => Sys2Proof.Machine.execCopy th f s
  | .fill th f => Sys2Proof.Machine.execFill th f s
  | .armCreate th f => Sys2Proof.Machine.execArmCreate th f s
  | .armMsg th f => Sys2Proof.Machine.execArmMsg th f s
  | .disarm th f => Sys2Proof.Machine.execDisarm th f s
  | .hmsg th f => Sys2Proof.Machine.execHmsg th f s
  | .crc32c th f => Sys2Proof.Machine.execCrc32c th f s
  | .crc32 th f => Sys2Proof.Machine.execCrc32 th f s
  | .crc16r th f => Sys2Proof.Machine.execCrc16r th f s
  | .crc16n th f => Sys2Proof.Machine.execCrc16n th f s
  | .tpzInit th f => Sys2Proof.Machine.execTpzInit th f s
  | .tpz th f => Sys2Proof.Machine.execTpz th f s
  | .tpzSym th f => Sys2Proof.Machine.execTpzSym th f s
  | .tpzH th f => Sys2Proof.Machine.execTpzH th f s
  | .tpzHSym th f => Sys2Proof.Machine.execTpzHSym th f s
  | .add16 th f => Sys2Proof.Machine.execAdd16 th f s
  | .add32 th f => Sys2Proof.Machine.execAdd32 th f s
  | .sub16 th f => Sys2Proof.Machine.execSub16 th f s
  | .fin th f => Sys2Proof.Machine.execFin th f s
  | .bfset th f => Sys2Proof.Machine.execBfset th f s
  | .extu th f => Sys2Proof.Machine.execExtu th f s
  | .exts th f => Sys2Proof.Machine.execExts th f s
  | .ins th f => Sys2Proof.Machine.execIns th f s
  | .tagof th f => Sys2Proof.Machine.execTagof th f s
  | .tagset th f => Sys2Proof.Machine.execTagset th f s
  | .mfs th f => Sys2Proof.Machine.execMfs th f s
  | .mts th f => Sys2Proof.Machine.execMts th f s
  | .tblh th f => Sys2Proof.Machine.execTblh th f s
  | .rdtime th f => Sys2Proof.Machine.execRdtime th f s
  | .rand th f => Sys2Proof.Machine.execRand th f s
  | .sett th f => Sys2Proof.Machine.execSett th f s
  | .relt th f => Sys2Proof.Machine.execRelt th f s
  | .fdispResume th f => Sys2Proof.Machine.execFdispResume th f s
  | .fdispSkip th f => Sys2Proof.Machine.execFdispSkip th f s
  | .fdispDrop th f => Sys2Proof.Machine.execFdispDrop th f s
  | .frcrel th f => Sys2Proof.Machine.execFrcrel th f s
  | .gett th f => Sys2Proof.Machine.execGett th f s
  | .thrst th f => Sys2Proof.Machine.execThrst th f s
  | .evqlen th f => Sys2Proof.Machine.execEvqlen th f s
  | .trig th f => Sys2Proof.Machine.execTrig th f s
  | .posycap th f => Sys2Proof.Machine.execPosycap th f s
  | .assert th f => Sys2Proof.Machine.execAssert th f s
  | .jmark th f => Sys2Proof.Machine.execJmark th f s
  | .breakOp th f => Sys2Proof.Machine.execBreak th f s
  | .cryKeyInstall r inst slot big => Sys2Proof.Machine.execCryKeyInstall r inst slot big s
  | .cryKeyDelete r inst slot => Sys2Proof.Machine.execCryKeyDelete r inst slot s
  | .tblInsert r t pipes => Sys2Proof.Machine.execTblInsert r t pipes s
  | .tblUpdate r t pipes => Sys2Proof.Machine.execTblUpdate r t pipes s
  | .tblDelete r t pipes => Sys2Proof.Machine.execTblDelete r t pipes s
  | .tblLookup r t pipes => Sys2Proof.Machine.execTblLookup r t pipes s
  | .tblHitread r t pipes clr => Sys2Proof.Machine.execTblHitread r t pipes clr s
  | .amWrite r t pipes => Sys2Proof.Machine.execAmWrite r t pipes s
  | .amInval r t pipes => Sys2Proof.Machine.execAmInval r t pipes s
  | .amRead r t pipes => Sys2Proof.Machine.execAmRead r t pipes s
  | .ageSweepStart t pipe => Sys2Proof.Machine.execAgeSweepStart t pipe s
  | .sweepVisit t pipe => Sys2Proof.Machine.execSweepVisit t pipe s
  | .learnFilterExpire pipe => Sys2Proof.Machine.execLearnFilterExpire pipe s
  | .learnQpop r => Sys2Proof.Machine.execLearnQpop r s
  | .tmEnqueue => Sys2Proof.Machine.execTmEnqueue s
  | .portOpportunity n => Sys2Proof.Machine.execPortOpportunity n s
  | .shaperEligible kind k => Sys2Proof.Machine.execShaperEligible kind k s
  | .tmCommit => Sys2Proof.Machine.execTmCommit s
  | .tmFlush r n => Sys2Proof.Machine.execTmFlush r n s
  | .spillWriteDone q => Sys2Proof.Machine.execSpillWriteDone q s
  | .spillReadback q => Sys2Proof.Machine.execSpillReadback q s
  | .spillReadDone q => Sys2Proof.Machine.execSpillReadDone q s
  | .gateCommit r n => Sys2Proof.Machine.execGateCommit r n s
  | .gateCancel r n => Sys2Proof.Machine.execGateCancel r n s
  | .gateOff r n => Sys2Proof.Machine.execGateOff r n s
  | .gateTakeover n => Sys2Proof.Machine.execGateTakeover n s
  | .gateChange n => Sys2Proof.Machine.execGateChange n s
  | .gclWrite r => Sys2Proof.Machine.execGclWrite r s
  | .gclRead r running => Sys2Proof.Machine.execGclRead r running s
  | .dramRequest port inst addr len data => Sys2Proof.Machine.execDramRequest port inst addr len data s
  | .dramCommandIssue sc late bad => Sys2Proof.Machine.execDramCommandIssue sc late bad s
  | .dramRequestComplete sc seq err => Sys2Proof.Machine.execDramRequestComplete sc seq err s
  | .refreshDue sc rank => Sys2Proof.Machine.execRefreshDue sc rank s
  | .mr4Poll sc rank fast => Sys2Proof.Machine.execMr4Poll sc rank fast s
  | .rhWindowEnd sc => Sys2Proof.Machine.execRhWindowEnd sc s
  | .pageIdleClose sc bank => Sys2Proof.Machine.execPageIdleClose sc bank s
  | .zqCal sc rank dev drift => Sys2Proof.Machine.execZqCal sc rank dev drift s
  | .centringSlice sc use => Sys2Proof.Machine.execCentringSlice sc use s
  | .forcedSlice sc => Sys2Proof.Machine.execForcedSlice sc s
  | .caParityAlert sc n => Sys2Proof.Machine.execCaParityAlert sc n s
  | .caReplay sc => Sys2Proof.Machine.execCaReplay sc s
  | .caRetrainDone sc ok => Sys2Proof.Machine.execCaRetrainDone sc ok s
  | .dmcFreq r ch => Sys2Proof.Machine.execDmcFreq r ch s
  | .dmcEnter2 r ch => Sys2Proof.Machine.execDmcEnter2 r ch s
  | .dmcExit r ch => Sys2Proof.Machine.execDmcExit r ch s
  | .levelChangeDone ch => Sys2Proof.Machine.execLevelChangeDone ch s
  | .dramTrainingDone pop code same bad imt mmt => Sys2Proof.Machine.execDramTrainingDone pop code same bad imt mmt s
  | .doorbell r f k v => Sys2Proof.Machine.execDoorbell r f k v s
  | .ringEnable r f k v => Sys2Proof.Machine.execRingEnable r f k v s
  | .txFetch d2 d3 frame => Sys2Proof.Machine.execTxFetch d2 d3 frame s
  | .hostRxDeliver f d => Sys2Proof.Machine.execHostRxDeliver f d s
  | .dmaError f k kind => Sys2Proof.Machine.execDmaError f k kind s
  | .interruptRaise f k => Sys2Proof.Machine.execInterruptRaise f k s
  | .createDone inst => Sys2Proof.Machine.execCreateDone inst s
  | .instanceResetDone inst => Sys2Proof.Machine.execInstanceResetDone inst s
  | .fabortDone r => Sys2Proof.Machine.execFabortDone r s
  | .flr f => Sys2Proof.Machine.execFlr f s
  | .vfDisable en n => Sys2Proof.Machine.execVfDisable en n s
  | .pcieReset => Sys2Proof.Machine.execPcieReset s
  | .pcieLinkUp speed lanesLog => Sys2Proof.Machine.execPcieLinkUp speed lanesLog s
  | .mbLoad r image => Sys2Proof.Machine.execMbLoad r image s
  | .imageCheck ok fa fb => Sys2Proof.Machine.execImageCheck ok fa fb s
  | .posyReshapePoint c => Sys2Proof.Machine.execPosyReshapePoint c s
  | .pgrfCommit => Sys2Proof.Machine.execPgrfCommit s
  | .pgrfWaitTimeout => Sys2Proof.Machine.execPgrfWaitTimeout s
  | .loadComplete => Sys2Proof.Machine.execLoadComplete s
  | .mbMsg r => Sys2Proof.Machine.execMbMsg r s
  | .stewardReply res reply => Sys2Proof.Machine.execStewardReply res reply s
  | .attestDone ok => Sys2Proof.Machine.execAttestDone ok s
  | .fuseProgramDone ok => Sys2Proof.Machine.execFuseProgramDone ok s
  | .scanEntry r => Sys2Proof.Machine.execScanEntry r s
  | .scrubVisit m a bad => Sys2Proof.Machine.execScrubVisit m a bad s
  | .amCheck e bad => Sys2Proof.Machine.execAmCheck e bad s
  | .reexecReady e => Sys2Proof.Machine.execReexecReady e s
  | .errorReport src kind sev unit loc inst => Sys2Proof.Machine.execErrorReport src kind sev unit loc inst s
  | .ercAck r j v => Sys2Proof.Machine.execErcAck r j v s
  | .faultLogAppend => Sys2Proof.Machine.execFaultLogAppend s
  | .mramRotate b ok => Sys2Proof.Machine.execMramRotate b ok s
  | .telemetrySnapshot => Sys2Proof.Machine.execTelemetrySnapshot s
  | .thistWrite => Sys2Proof.Machine.execThistWrite s
  | .jnlStart r => Sys2Proof.Machine.execJnlStart r s
  | .jnlStop r => Sys2Proof.Machine.execJnlStop r s
  | .jnlTrigger r => Sys2Proof.Machine.execJnlTrigger r s
  | .jnlRearm r => Sys2Proof.Machine.execJnlRearm r s
  | .timebaseRecord => Sys2Proof.Machine.execTimebaseRecord s
  | .journalFreeze => Sys2Proof.Machine.execJournalFreeze s
  | .rpStart r => Sys2Proof.Machine.execRpStart r s
  | .rpContinue r => Sys2Proof.Machine.execRpContinue r s
  | .rpStop r => Sys2Proof.Machine.execRpStop r s
  | .replayInject => Sys2Proof.Machine.execReplayInject s
  | .coldReset => Sys2Proof.Machine.execColdReset s
  | .powerOnBoot straps fa fb => Sys2Proof.Machine.execPowerOnBoot straps fa fb s
  | .warmReset => Sys2Proof.Machine.execWarmReset s
  | .rstWarm r => Sys2Proof.Machine.execRstWarm r s
  | .rstSteward r => Sys2Proof.Machine.execRstSteward r s
  | .lockstepMismatch => Sys2Proof.Machine.execLockstepMismatch s
  | .stewardReset => Sys2Proof.Machine.execStewardReset s
  | .stewardReloadDone fw => Sys2Proof.Machine.execStewardReloadDone fw s
  | .hbKick r => Sys2Proof.Machine.execHbKick r s
  | .kickTimeout => Sys2Proof.Machine.execKickTimeout s
  | .mateHbEdge => Sys2Proof.Machine.execMateHbEdge s
  | .mateLost => Sys2Proof.Machine.execMateLost s
  | .thermalSample temps => Sys2Proof.Machine.execThermalSample temps s
  | .railLoss aon => Sys2Proof.Machine.execRailLoss aon s
  | .pllLossOfLock d => Sys2Proof.Machine.execPllLossOfLock d s
  | .glbExpdeny r v => Sys2Proof.Machine.execGlbExpdeny r v s
  | .iadataRead v => Sys2Proof.Machine.execIadataRead v s
  | .iadataWrite v be w => Sys2Proof.Machine.execIadataWrite v be w s
  | .localFaultClear m => Sys2Proof.Machine.execLocalFaultClear m s
  | .vfEnable n => Sys2Proof.Machine.execVfEnable n s
  | .centringSliceEnd sc last => Sys2Proof.Machine.execCentringSliceEnd sc last s
  | .hbResume => Sys2Proof.Machine.execHbResume s
  | .tapInstruction ir => Sys2Proof.Machine.execTapInstruction ir s

end Sys2Proof.Machine
end

