-- ==== Sys2Proof/Machine/Tick.lean ====
section
/-! DEFINITION. What one nanosecond brings when no command waits (log entry 1): the FAB count and the PTP counter advance
(08_petal_core_ops.md R258, 03_ports.md R108), PPS_OUT falls at the end of its width (03 R113), and the staging buffer of the journal drains
(18_resilience_replay.md R492). -/

namespace Sys2Proof.Machine

/-- One PTP cycle: the counter advances by 1 ns plus PTP_FREQ times 2^-40 ns, the addition made to the whole fraction with its
carries (R108). -/
def ptpAdvance (c : Clocks) (freq : Word) : Clocks :=
  let t : Int := ((c.ns * 2 ^ 40 + c.frac + 2 ^ 40 : Nat) : Int) + freq.toInt
  let n := t.toNat / 2 ^ 40
  { c with sec := (c.sec + n / 1000000000) % 2 ^ 48, ns := n % 1000000000, frac := t.toNat % 2 ^ 40 }

/-- The PTP counter runs while its block is out of reset (01_architecture.md R50). -/
def ptpTick (s : State) : State :=
  if decide ((blkGet s 11 0).st = .reset) then s
  else
    let c := ptpAdvance s.clk (rv s 0xE08000)
    { s with clk := c,
             port := { s.port with ppsOut := s.port.ppsOut && decide (c.ns < rf s 0xE08018 19 0 * 100) } }

/-- One nanosecond. In a cold reset no clock runs (19_reset_boot_mate.md R505). -/
def tick (s : State) : State :=
  if s.boot.phase = 0 then s
  else
    let s := ptpTick { s with clk := { s.clk with fab := s.clk.fab + 1 } }
    if active s 27 0 then jnlDrain s.jnl.staged.length s else s

end Sys2Proof.Machine
end

