-- ==== Sys2Proof/WellFormed.lean ====
section
/-! DEFINITION. Which commands are well formed: the operands that a type alone does not bound lie where the spec puts them. The
machine answers every command, well formed or not; statements about encodings take well-formed ones. -/

namespace Sys2Proof

open Sys2Proof.Machine

/-- The Petal instruction a command is: its thread, its operation in the opcode map (07 R230 to R234) and its form. NOP with
bytes of an undefined encoding is none. -/
def petalOf (i : Instr) : Option (Thr × POp × Form) :=
  match i with
  | .nop th f raw => if raw.isEmpty then some (th, .nop, f) else none
  | .getw th f => some (th, .getw, f)
  | .yield th f => some (th, .yieldOp, f)
  | .fence th f => some (th, .fence, f)
  | .lexit th f => some (th, .lexit, f)
  | .mov th f => some (th, .mov, f)
  | .movi th f => some (th, .movi, f)
  | .movih th f => some (th, .movih, f)
  | .swap th f => some (th, .swap, f)
  | .clr th f => some (th, .clr, f)
  | .add th f => some (th, .add, f)
  | .sub th f => some (th, .sub, f)
  | .and th f => some (th, .andOp, f)
  | .or th f => some (th, .orOp, f)
  | .xor th f => some (th, .xorOp, f)
  | .shl th f => some (th, .shl, f)
  | .shr th f => some (th, .shr, f)
  | .sar th f => some (th, .sar, f)
  | .addc th f => some (th, .addc, f)
  | .subc th f => some (th, .subc, f)
  | .mul th f => some (th, .mul, f)
  | .min th f => some (th, .minOp, f)
  | .max th f => some (th, .maxOp, f)
  | .minu th f => some (th, .minu, f)
  | .maxu th f => some (th, .maxu, f)
  | .rol th f => some (th, .rol, f)
  | .addi th f => some (th, .addi, f)
  | .subi th f => some (th, .subi, f)
  | .andi th f => some (th, .andi, f)
  | .ori th f => some (th, .ori, f)
  | .xori th f => some (th, .xori, f)
  | .shli th f => some (th, .shli, f)
  | .shri th f => some (th, .shri, f)
  | .sari th f => some (th, .sari, f)
  | .roli th f => some (th, .roli, f)
  | .cmp th f => some (th, .cmp, f)
  | .cmpi th f => some (th, .cmpi, f)
  | .tst th f => some (th, .tst, f)
  | .tsti th f => some (th, .tsti, f)
  | .not th f => some (th, .notOp, f)
  | .neg th f => some (th, .neg, f)
  | .sextb th f => some (th, .sextb, f)
  | .sexth th f => some (th, .sexth, f)
  | .zextb th f => some (th, .zextb, f)
  | .zexth th f => some (th, .zexth, f)
  | .bswap th f => some (th, .bswap, f)
  | .mulw th f => some (th, .mulw, f)
  | .mulwu th f => some (th, .mulwu, f)
  | .div th f => some (th, .divOp, f)
  | .divu th f => some (th, .divu, f)
  | .rem th f => some (th, .rem, f)
  | .remu th f => some (th, .remu, f)
  | .clz th f => some (th, .clz, f)
  | .ctz th f => some (th, .ctz, f)
  | .popc th f => some (th, .popc, f)
  | .brev th f => some (th, .brev, f)
  | .ld th f => some (th, .ld, f)
  | .ldx th f => some (th, .ldx, f)
  | .lds th f => some (th, .lds, f)
  | .ldsx th f => some (th, .ldsx, f)
  | .st th f => some (th, .st, f)
  | .stx th f => some (th, .stx, f)
  | .hld th f => some (th, .hld, f)
  | .hldx th f => some (th, .hldx, f)
  | .hofs th f => some (th, .hofs, f)
  | .hlen th f => some (th, .hlen, f)
  | .htype th f => some (th, .htype, f)
  | .br th f => some (th, .br, f)
  | .bcc th f => some (th, .bcc, f)
  | .call th f => some (th, .call, f)
  | .callr th f => some (th, .callr, f)
  | .jmpr th f => some (th, .jmpr, f)
  | .ret th f => some (th, .ret, f)
  | .loop th f => some (th, .loopOp, f)
  | .loopi th f => some (th, .loopi, f)
  | .lea th f => some (th, .lea, f)
  | .send th f => some (th, .send, f)
  | .sendi th f => some (th, .sendi, f)
  | .drop th f => some (th, .dropOp, f)
  | .mirror th f => some (th, .mirror, f)
  | .recirc th f => some (th, .recirc, f)
  | .tohost th f => some (th, .tohost, f)
  | .pktlen th f => some (th, .pktlen, f)
  | .edadd th f => some (th, .edadd, f)
  | .edrd th f => some (th, .edrd, f)
  | .alloc th f => some (th, .alloc, f)
  | .free th f => some (th, .freeOp, f)
  | .bld th f => some (th, .bld, f)
  | .bst th f => some (th, .bst, f)
  | .ordx th f => some (th, .ordx, f)
  | .mkitem th f => some (th, .mkitem, f)
  | .sendmsg th f => some (th, .sendmsg, f)
  | .lock th f => some (th, .lock, f)
  | .locki th f => some (th, .locki, f)
  | .unlock th f => some (th, .unlock, f)
  | .trylock th f => some (th, .trylock, f)
  | .flock th f => some (th, .flock, f)
  | .funlock th f => some (th, .funlock, f)
  | .lkstat th f => some (th, .lkstat, f)
  | .afadd th f => some (th, .afadd, f)
  | .afand th f => some (th, .afand, f)
  | .afor th f => some (th, .afor, f)
  | .aswap th f => some (th, .aswap, f)
  | .acas th f => some (th, .acas, f)
  | .evwait th f => some (th, .evwait, f)
  | .evsig th f => some (th, .evsig, f)
  | .clk th f => some (th, .clk, f)
  | .cul th f => some (th, .cul, f)
  | .mtc th f => some (th, .mtc, f)
  | .mfc th f => some (th, .mfc, f)
  | .keyref th f => some (th, .keyref, f)
  | .gcmEnc th f => some (th, .gcmEnc, f)
  | .gcmDec th f => some (th, .gcmDec, f)
  | .sha256 th f => some (th, .sha256, f)
  | .lmsVerify th f => some (th, .lmsVerify, f)
  | .lkpLookup th f => some (th, .lookup, f)
  | .lkpInsert th f => some (th, .insertOp, f)
  | .lkpUpdate th f => some (th, .updateOp, f)
  | .lkpDelete th f => some (th, .deleteOp, f)
  | .lkpHitread th f => some (th, .hitread, f)
  | .patScan th f => some (th, .scan, f)
  | .police th f => some (th, .police, f)
  | .mtrCount th f => some (th, .countOp, f)
  | .cntread th f => some (th, .cntread, f)
  | .cntclr th f => some (th, .cntclr, f)
  | .copy th f => some (th, .copy, f)
  | .fill th f => some (th, .fill, f)
  | .armCreate th f => some (th, .armCreate, f)
  | .armMsg th f => some (th, .armMsg, f)
  | .disarm th f => some (th, .disarm, f)
  | .hmsg th f => some (th, .hmsg, f)
  | .crc32c th f => some (th, .crc32c, f)
  | .crc32 th f => some (th, .crc32, f)
  | .crc16r th f => some (th, .crc16r, f)
  | .crc16n th f => some (th, .crc16n, f)
  | .tpzInit th f => some (th, .tpzInit, f)
  | .tpz th f => some (th, .tpz, f)
  | .tpzSym th f => some (th, .tpzSym, f)
  | .tpzH th f => some (th, .tpzH, f)
  | .tpzHSym th f => some (th, .tpzHSym, f)
  | .add16 th f => some (th, .add16, f)
  | .add32 th f => some (th, .add32, f)
  | .sub16 th f => some (th, .sub16, f)
  | .fin th f => some (th, .finOp, f)
  | .bfset th f => some (th, .bfset, f)
  | .extu th f => some (th, .extu, f)
  | .exts th f => some (th, .exts, f)
  | .ins th f => some (th, .ins, f)
  | .tagof th f => some (th, .tagof, f)
  | .tagset th f => some (th, .tagset, f)
  | .mfs th f => some (th, .mfs, f)
  | .mts th f => some (th, .mts, f)
  | .tblh th f => some (th, .tblh, f)
  | .rdtime th f => some (th, .rdtime, f)
  | .rand th f => some (th, .rand, f)
  | .sett th f => some (th, .sett, f)
  | .relt th f => some (th, .relt, f)
  | .fdispResume th f => some (th, .fdisp, { f with imm := 0 })
  | .fdispSkip th f => some (th, .fdisp, { f with imm := 1 })
  | .fdispDrop th f => some (th, .fdisp, { f with imm := 2 })
  | .frcrel th f => some (th, .frcrel, f)
  | .gett th f => some (th, .gett, f)
  | .thrst th f => some (th, .thrst, f)
  | .evqlen th f => some (th, .evqlen, f)
  | .trig th f => some (th, .trig, f)
  | .posycap th f => some (th, .posycap, f)
  | .assert th f => some (th, .assertOp, f)
  | .jmark th f => some (th, .jmark, f)
  | .breakOp th f => some (th, .breakOp, f)
  | .lckAcquire .. | .lckRelease .. | .lckForce .. | .insCreate .. | .insStart .. | .insReset .. | .insRemove ..
  | .hostEvent .. | .fabortDma .. | .fabortPosy .. | .fabortContext .. | .fabortLearnq .. | .newchal .. | .submit ..
  | .secLock .. | .attest .. | .arbAdvance .. | .registerWrite .. | .idleReqWrite .. | .blockDrainDone ..
  | .hFieldCommit .. | .frameReceive .. | .flowctlFrameReceive .. | .pauseExpire .. | .ctxHoldExpire ..
  | .flowctlFrameSend .. | .flowctlRepeat .. | .localFault .. | .laneLossOfLock .. | .retrain .. | .retrainDone ..
  | .eyeScan .. | .eyeScanDone .. | .mscInstall .. | .mscDelete .. | .txSwitch .. | .readPn .. | .readStats ..
  | .ptpSet .. | .ptpStep .. | .ptpTimeLatch .. | .tsfPop .. | .ppsOutPulse | .ppsInCapture | .sync10mCapture
  | .fcbasicWrite .. | .frameTransmit .. | .parsePass .. | .classifyPacket .. | .scanVerdict .. | .fragEntryExpire ..
  | .fragFlush .. | .epochCommit .. | .epochCommitPending .. | .epochRetire .. | .actionWrite .. | .patSetEnable ..
  | .templateWrite .. | .egressEdit | .governorFrame | .govWindow | .hostItemCreate .. | .hostMsgSend ..
  | .operandArrive .. | .msgWaitExpire .. | .ctxWaitTimeout .. | .dispatch | .contextRelease | .timerFire ..
  | .deadlockDetect .. | .coreParity .. | .spareJoin .. | .stallWdogExpire .. | .faultDispTimeout ..
  | .fetchLineRewrite .. | .stopHold .. | .stopYield .. | .debugResume .. | .debugStep .. | .regRead ..
  | .regWrite .. | .freeApply | .cacheRefill .. | .cacheSpill .. | .poolEnable .. | .lockGrant .. | .atomicPerform ..
  | .contextGrant .. | .commandComplete .. | .commandCancel .. | .cryKeyInstall .. | .cryKeyDelete .. | .tblInsert ..
  | .tblUpdate .. | .tblDelete .. | .tblLookup .. | .tblHitread .. | .amWrite .. | .amInval .. | .amRead ..
  | .ageSweepStart .. | .sweepVisit .. | .learnFilterExpire .. | .learnQpop .. | .tmEnqueue | .portOpportunity ..
  | .shaperEligible .. | .tmCommit | .tmFlush .. | .spillWriteDone .. | .spillReadback .. | .spillReadDone ..
  | .gateCommit .. | .gateCancel .. | .gateOff .. | .gateTakeover .. | .gateChange .. | .gclWrite .. | .gclRead ..
  | .dramRequest .. | .dramCommandIssue .. | .dramRequestComplete .. | .refreshDue .. | .mr4Poll .. | .rhWindowEnd ..
  | .pageIdleClose .. | .zqCal .. | .centringSlice .. | .forcedSlice .. | .caParityAlert .. | .caReplay ..
  | .caRetrainDone .. | .dmcFreq .. | .dmcEnter2 .. | .dmcExit .. | .levelChangeDone .. | .dramTrainingDone ..
  | .doorbell .. | .ringEnable .. | .txFetch .. | .hostRxDeliver .. | .dmaError .. | .interruptRaise ..
  | .createDone .. | .instanceResetDone .. | .fabortDone .. | .flr .. | .vfDisable .. | .pcieReset | .pcieLinkUp ..
  | .mbLoad .. | .imageCheck .. | .posyReshapePoint .. | .pgrfCommit | .pgrfWaitTimeout | .loadComplete | .mbMsg ..
  | .stewardReply .. | .attestDone .. | .fuseProgramDone .. | .scanEntry .. | .scrubVisit .. | .amCheck ..
  | .reexecReady .. | .errorReport .. | .ercAck .. | .faultLogAppend | .mramRotate .. | .telemetrySnapshot
  | .thistWrite | .jnlStart .. | .jnlStop .. | .jnlTrigger .. | .jnlRearm .. | .timebaseRecord | .journalFreeze
  | .rpStart .. | .rpContinue .. | .rpStop .. | .replayInject | .coldReset | .powerOnBoot .. | .warmReset
  | .rstWarm .. | .rstSteward .. | .lockstepMismatch | .stewardReset | .stewardReloadDone .. | .hbKick ..
  | .kickTimeout | .mateHbEdge | .mateLost | .thermalSample .. | .railLoss .. | .pllLossOfLock .. | .glbExpdeny ..
  | .iadataRead .. | .iadataWrite .. | .localFaultClear .. | .vfEnable .. | .centringSliceEnd .. | .hbResume
  | .tapInstruction .. => none

/-- A format carries the register byte rd, rs (07 R225). -/
def fmtRegs (f : PFmt) : Bool := match f with
  | .f1 => false
  | .f5 => false
  | _ => true

/-- The fields of a form are ones its operation's format carries (07 R225, R226): no register where there is no register byte, rt in
format F6 alone, and an immediate of the format's width. -/
def formFits (o : POp) (f : Form) : Bool :=
  (fmtRegs (pinfo o).fmt || (decide (f.rd = 0) && decide (f.rs = 0))) && (decide ((pinfo o).fmt = .f6) || decide (f.rt = 0)) &&
  immCanon o f

/-- The register at an offset has class-H fields (00_scope.md, "Registers"; 01 R16). -/
def isHReg (off : Nat) : Bool := match regRow off with
  | some d => decide (d.cls = .h)
  | none => false

/-- The data of a write is as long as the request, and a request names at least one byte (15 R405). -/
def reqFits (len : Nat) (data : Option (List Byte)) : Bool :=
  decide (0 < len) &&
    (match data with
      | some bs => decide (bs.length = len)
      | none => true)

/-- A command is well formed. -/
def wf (i : Instr) : Bool :=
  match i with
  | .registerWrite _ off _ _ => decide (off % 4 = 0) && decide (off < 2 ^ 26)
  | .idleReqWrite _ b c _ => decide (c.val < blkCopies b.val)
  | .blockDrainDone b c => decide (c.val < blkCopies b.val)
  | .hFieldCommit off => isHReg off
  | .frameReceive _ fr _ _ _ => decide (0 < fr.length)
  | .flowctlFrameReceive _ fr => decide (fr.length = 64)
  | .nop _ f raw => if raw.isEmpty then formFits .nop f else decide (raw.length ≤ 11)
  | .getw _ f => formFits .getw f
  | .yield _ f => formFits .yieldOp f
  | .fence _ f => formFits .fence f
  | .lexit _ f => formFits .lexit f
  | .mov _ f => formFits .mov f
  | .movi _ f => formFits .movi f
  | .movih _ f => formFits .movih f
  | .swap _ f => formFits .swap f
  | .clr _ f => formFits .clr f
  | .add _ f => formFits .add f
  | .sub _ f => formFits .sub f
  | .and _ f => formFits .andOp f
  | .or _ f => formFits .orOp f
  | .xor _ f => formFits .xorOp f
  | .shl _ f => formFits .shl f
  | .shr _ f => formFits .shr f
  | .sar _ f => formFits .sar f
  | .addc _ f => formFits .addc f
  | .subc _ f => formFits .subc f
  | .mul _ f => formFits .mul f
  | .min _ f => formFits .minOp f
  | .max _ f => formFits .maxOp f
  | .minu _ f => formFits .minu f
  | .maxu _ f => formFits .maxu f
  | .rol _ f => formFits .rol f
  | .addi _ f => formFits .addi f
  | .subi _ f => formFits .subi f
  | .andi _ f => formFits .andi f
  | .ori _ f => formFits .ori f
  | .xori _ f => formFits .xori f
  | .shli _ f => formFits .shli f
  | .shri _ f => formFits .shri f
  | .sari _ f => formFits .sari f
  | .roli _ f => formFits .roli f
  | .cmp _ f => formFits .cmp f
  | .cmpi _ f => formFits .cmpi f
  | .tst _ f => formFits .tst f
  | .tsti _ f => formFits .tsti f
  | .not _ f => formFits .notOp f
  | .neg _ f => formFits .neg f
  | .sextb _ f => formFits .sextb f
  | .sexth _ f => formFits .sexth f
  | .zextb _ f => formFits .zextb f
  | .zexth _ f => formFits .zexth f
  | .bswap _ f => formFits .bswap f
  | .mulw _ f => formFits .mulw f
  | .mulwu _ f => formFits .mulwu f
  | .div _ f => formFits .divOp f
  | .divu _ f => formFits .divu f
  | .rem _ f => formFits .rem f
  | .remu _ f => formFits .remu f
  | .clz _ f => formFits .clz f
  | .ctz _ f => formFits .ctz f
  | .popc _ f => formFits .popc f
  | .brev _ f => formFits .brev f
  | .ld _ f => formFits .ld f
  | .ldx _ f => formFits .ldx f
  | .lds _ f => formFits .lds f
  | .ldsx _ f => formFits .ldsx f
  | .st _ f => formFits .st f
  | .stx _ f => formFits .stx f
  | .hld _ f => formFits .hld f
  | .hldx _ f => formFits .hldx f
  | .hofs _ f => formFits .hofs f
  | .hlen _ f => formFits .hlen f
  | .htype _ f => formFits .htype f
  | .br _ f => formFits .br f
  | .bcc _ f => formFits .bcc f
  | .call _ f => formFits .call f
  | .callr _ f => formFits .callr f
  | .jmpr _ f => formFits .jmpr f
  | .ret _ f => formFits .ret f
  | .loop _ f => formFits .loopOp f
  | .loopi _ f => formFits .loopi f
  | .lea _ f => formFits .lea f
  | .send _ f => formFits .send f
  | .sendi _ f => formFits .sendi f
  | .drop _ f => formFits .dropOp f
  | .mirror _ f => formFits .mirror f
  | .recirc _ f => formFits .recirc f
  | .tohost _ f => formFits .tohost f
  | .pktlen _ f => formFits .pktlen f
  | .edadd _ f => formFits .edadd f
  | .edrd _ f => formFits .edrd f
  | .alloc _ f => formFits .alloc f
  | .free _ f => formFits .freeOp f
  | .bld _ f => formFits .bld f
  | .bst _ f => formFits .bst f
  | .ordx _ f => formFits .ordx f
  | .mkitem _ f => formFits .mkitem f
  | .sendmsg _ f => formFits .sendmsg f
  | .lock _ f => formFits .lock f
  | .locki _ f => formFits .locki f
  | .unlock _ f => formFits .unlock f
  | .trylock _ f => formFits .trylock f
  | .flock _ f => formFits .flock f
  | .funlock _ f => formFits .funlock f
  | .lkstat _ f => formFits .lkstat f
  | .afadd _ f => formFits .afadd f
  | .afand _ f => formFits .afand f
  | .afor _ f => formFits .afor f
  | .aswap _ f => formFits .aswap f
  | .acas _ f => formFits .acas f
  | .evwait _ f => formFits .evwait f
  | .evsig _ f => formFits .evsig f
  | .clk _ f => formFits .clk f
  | .cul _ f => formFits .cul f
  | .mtc _ f => formFits .mtc f
  | .mfc _ f => formFits .mfc f
  | .keyref _ f => formFits .keyref f
  | .gcmEnc _ f => formFits .gcmEnc f
  | .gcmDec _ f => formFits .gcmDec f
  | .sha256 _ f => formFits .sha256 f
  | .lmsVerify _ f => formFits .lmsVerify f
  | .lkpLookup _ f => formFits .lookup f
  | .lkpInsert _ f => formFits .insertOp f
  | .lkpUpdate _ f => formFits .updateOp f
  | .lkpDelete _ f => formFits .deleteOp f
  | .lkpHitread _ f => formFits .hitread f
  | .patScan _ f => formFits .scan f
  | .police _ f => formFits .police f
  | .mtrCount _ f => formFits .countOp f
  | .cntread _ f => formFits .cntread f
  | .cntclr _ f => formFits .cntclr f
  | .copy _ f => formFits .copy f
  | .fill _ f => formFits .fill f
  | .armCreate _ f => formFits .armCreate f
  | .armMsg _ f => formFits .armMsg f
  | .disarm _ f => formFits .disarm f
  | .hmsg _ f => formFits .hmsg f
  | .crc32c _ f => formFits .crc32c f
  | .crc32 _ f => formFits .crc32 f
  | .crc16r _ f => formFits .crc16r f
  | .crc16n _ f => formFits .crc16n f
  | .tpzInit _ f => formFits .tpzInit f
  | .tpz _ f => formFits .tpz f
  | .tpzSym _ f => formFits .tpzSym f
  | .tpzH _ f => formFits .tpzH f
  | .tpzHSym _ f => formFits .tpzHSym f
  | .add16 _ f => formFits .add16 f
  | .add32 _ f => formFits .add32 f
  | .sub16 _ f => formFits .sub16 f
  | .fin _ f => formFits .finOp f
  | .bfset _ f => formFits .bfset f
  | .extu _ f => formFits .extu f
  | .exts _ f => formFits .exts f
  | .ins _ f => formFits .ins f
  | .tagof _ f => formFits .tagof f
  | .tagset _ f => formFits .tagset f
  | .mfs _ f => formFits .mfs f
  | .mts _ f => formFits .mts f
  | .tblh _ f => formFits .tblh f
  | .rdtime _ f => formFits .rdtime f
  | .rand _ f => formFits .rand f
  | .sett _ f => formFits .sett f
  | .relt _ f => formFits .relt f
  | .fdispResume _ f => formFits .fdisp ({ f with imm := 0 })
  | .fdispSkip _ f => formFits .fdisp ({ f with imm := 1 })
  | .fdispDrop _ f => formFits .fdisp ({ f with imm := 2 })
  | .frcrel _ f => formFits .frcrel f
  | .gett _ f => formFits .gett f
  | .thrst _ f => formFits .thrst f
  | .evqlen _ f => formFits .evqlen f
  | .trig _ f => formFits .trig f
  | .posycap _ f => formFits .posycap f
  | .assert _ f => formFits .assertOp f
  | .jmark _ f => formFits .jmark f
  | .breakOp _ f => formFits .breakOp f
  | .dramRequest _ _ _ len data => reqFits len.val data
  | .thermalSample temps => decide (temps.length = 16)
  | .lckAcquire .. | .lckRelease .. | .lckForce .. | .insCreate .. | .insStart .. | .insReset .. | .insRemove ..
  | .hostEvent .. | .fabortDma .. | .fabortPosy .. | .fabortContext .. | .fabortLearnq .. | .newchal .. | .submit ..
  | .secLock .. | .attest .. | .arbAdvance .. | .pauseExpire .. | .ctxHoldExpire .. | .flowctlFrameSend ..
  | .flowctlRepeat .. | .localFault .. | .laneLossOfLock .. | .retrain .. | .retrainDone .. | .eyeScan ..
  | .eyeScanDone .. | .mscInstall .. | .mscDelete .. | .txSwitch .. | .readPn .. | .readStats .. | .ptpSet ..
  | .ptpStep .. | .ptpTimeLatch .. | .tsfPop .. | .ppsOutPulse | .ppsInCapture | .sync10mCapture | .fcbasicWrite ..
  | .frameTransmit .. | .parsePass .. | .classifyPacket .. | .scanVerdict .. | .fragEntryExpire .. | .fragFlush ..
  | .epochCommit .. | .epochCommitPending .. | .epochRetire .. | .actionWrite .. | .patSetEnable ..
  | .templateWrite .. | .egressEdit | .governorFrame | .govWindow | .hostItemCreate .. | .hostMsgSend ..
  | .operandArrive .. | .msgWaitExpire .. | .ctxWaitTimeout .. | .dispatch | .contextRelease | .timerFire ..
  | .deadlockDetect .. | .coreParity .. | .spareJoin .. | .stallWdogExpire .. | .faultDispTimeout ..
  | .fetchLineRewrite .. | .stopHold .. | .stopYield .. | .debugResume .. | .debugStep .. | .regRead ..
  | .regWrite .. | .freeApply | .cacheRefill .. | .cacheSpill .. | .poolEnable .. | .lockGrant .. | .atomicPerform ..
  | .contextGrant .. | .commandComplete .. | .commandCancel .. | .cryKeyInstall .. | .cryKeyDelete .. | .tblInsert ..
  | .tblUpdate .. | .tblDelete .. | .tblLookup .. | .tblHitread .. | .amWrite .. | .amInval .. | .amRead ..
  | .ageSweepStart .. | .sweepVisit .. | .learnFilterExpire .. | .learnQpop .. | .tmEnqueue | .portOpportunity ..
  | .shaperEligible .. | .tmCommit | .tmFlush .. | .spillWriteDone .. | .spillReadback .. | .spillReadDone ..
  | .gateCommit .. | .gateCancel .. | .gateOff .. | .gateTakeover .. | .gateChange .. | .gclWrite .. | .gclRead ..
  | .dramCommandIssue .. | .dramRequestComplete .. | .refreshDue .. | .mr4Poll .. | .rhWindowEnd ..
  | .pageIdleClose .. | .zqCal .. | .centringSlice .. | .forcedSlice .. | .caParityAlert .. | .caReplay ..
  | .caRetrainDone .. | .dmcFreq .. | .dmcEnter2 .. | .dmcExit .. | .levelChangeDone .. | .dramTrainingDone ..
  | .doorbell .. | .ringEnable .. | .txFetch .. | .hostRxDeliver .. | .dmaError .. | .interruptRaise ..
  | .createDone .. | .instanceResetDone .. | .fabortDone .. | .flr .. | .vfDisable .. | .pcieReset | .pcieLinkUp ..
  | .mbLoad .. | .imageCheck .. | .posyReshapePoint .. | .pgrfCommit | .pgrfWaitTimeout | .loadComplete | .mbMsg ..
  | .stewardReply .. | .attestDone .. | .fuseProgramDone .. | .scanEntry .. | .scrubVisit .. | .amCheck ..
  | .reexecReady .. | .errorReport .. | .ercAck .. | .faultLogAppend | .mramRotate .. | .telemetrySnapshot
  | .thistWrite | .jnlStart .. | .jnlStop .. | .jnlTrigger .. | .jnlRearm .. | .timebaseRecord | .journalFreeze
  | .rpStart .. | .rpContinue .. | .rpStop .. | .replayInject | .coldReset | .powerOnBoot .. | .warmReset
  | .rstWarm .. | .rstSteward .. | .lockstepMismatch | .stewardReset | .stewardReloadDone .. | .hbKick ..
  | .kickTimeout | .mateHbEdge | .mateLost | .railLoss .. | .pllLossOfLock .. | .glbExpdeny .. | .iadataRead ..
  | .iadataWrite .. | .localFaultClear .. | .vfEnable .. | .centringSliceEnd .. | .hbResume | .tapInstruction .. => true

end Sys2Proof
end

