-- ==== Sys2Proof/Safety.lean ====
section
/-! DEFINITION. The terms in which statements speak of a run: when a thread's core carries out a Petal instruction, what its operands
must be, what an instruction leaves alone, and the invariant of the device. -/

namespace Sys2Proof.Machine

/-- The number of a command's thread. -/
def thrNo (th : Thr) : Nat := tidOf th.core.val th.thread.val

/-- The thread of a command, before it. -/
def thrOf (th : Thr) (s : State) : Thread := thr s (thrNo th)

/-- The address after an instruction that a thread has at its PC (07 R226). -/
def nextPc (o : POp) (th : Thr) (f : Form) (s : State) : Nat := (thrOf th s).pc + formLen o f

/-- The core of a READY thread fetches the instruction (06 R195, R196, R213; 01 R50): no STEP is at work, the CORE block is not idle, no
breakpoint stops the thread, and the bytes lie in the instruction store and are read without error. -/
def fetches (o : POp) (th : Thr) (f : Form) (s : State) : Prop :=
  (thrOf th s).st = .ready ∧ (thrOf th s).step = 0 ∧ active s 18 0 = true ∧
  (bkptAt s th.core.val (thrOf th s).pc && !(thrOf th s).bkSkip && dbgHeld s (tinst s (thrNo th))) = false ∧
  nextPc o th f s ≤ 524288 ∧ f.err.val ≠ 1 ∧
  lineBad s (clusterOf s th.core.val) (thrOf th s).pc (formLen o f) = false

/-- Steps 2 to 5 of 07 R235 let the instruction through: its encoding is legal, a privileged one runs in a supervisor, a unit it names
is attached, its predicate holds, and the block of its operation takes new operations. -/
def admitted (o : POp) (th : Thr) (f : Form) (s : State) : Prop :=
  formLegal o f (nextPc o th f s) = true ∧ (petalPriv o = true → isSup s (thrNo th) = true) ∧
  (∀ u, petalUnit o f = some u → (unitsOf s (clusterOf s th.core.val)).testBit u = true) ∧
  ((f.pred.val = 1 ∨ f.pred.val = 2) → 16 ∉ (thrOf th s).busy) ∧ predHolds (thrOf th s) f = true ∧ petalWaits o s = false

/-- An instruction with CO has its turn: its thread's context is at the head of its flow, or UNORD (05 R179). -/
def inOrder (th : Thr) (f : Form) (s : State) : Prop := f.co = true → coWaits s (thrOf th s) = false

/-- The instruction is carried out unless its operands forbid it. -/
def goesAhead (o : POp) (th : Thr) (f : Form) (s : State) : Prop :=
  fetches o th f s ∧ admitted o th f s ∧ inOrder th f s

/-- The posy of a command's thread is plain32 (02 R64). -/
def isPlain (th : Thr) (s : State) : Bool := plainOf s (thrNo th)

/-- The results registers wait for have arrived (09 R282). -/
def arrived (th : Thr) (s : State) (rs : List Nat) : Prop := ∀ r ∈ rs, r ∉ (thrOf th s).busy

/-- No register read as a value is POISON (07 R219). -/
def clean (th : Thr) (s : State) (rs : List Nat) : Prop := ∀ r ∈ rs, r ≠ 16 → tagR (thrOf th s) r ≠ tPOISON

/-- In a tagged posy no destination register holds a BUF (07 R220). -/
def destsFree (th : Thr) (s : State) (rs : List Nat) : Prop :=
  isPlain th s = true ∨ ∀ r ∈ rs, tagR (thrOf th s) r ≠ tBUF

/-- In a tagged posy the registers hold INT (07 R218, classes TI and TN). -/
def allInt (th : Thr) (s : State) (rs : List Nat) : Prop :=
  isPlain th s = true ∨ ∀ r ∈ rs, tagR (thrOf th s) r = tINT

/-- Register `r` of a command's thread. -/
def gval (th : Thr) (s : State) (r : Nat) : Word := valR (thrOf th s) r

/-- Z, N, C and V of a thread (07 R215). -/
def flags (t : Thread) : Bool × Bool × Bool × Bool := (t.z, t.n, t.c, t.v)

/-- What no instruction but one of its own thread changes: two states agree on everything except the thread and the count of
instructions its core has committed. -/
def onlyThread (th : Thr) (s s' : State) : Prop :=
  s' = { s with cores := { s.cores with thr := s'.cores.thr, commits := s'.cores.commits } } ∧
  ∀ k, k ≠ thrNo th → thr s' k = thr s k

/-- A thread before and after an instruction that changes its registers, its flags and its PC and nothing else of what it holds. -/
def sameHoldings (t t' : Thread) : Prop :=
  t'.st = .ready ∧ t'.pkt = t.pkt ∧ t'.ctx = t.ctx ∧ t'.entry = t.entry ∧ t'.edit = t.edit ∧ t'.base = t.base ∧ t'.evq = t.evq ∧
  t'.pend = t.pend ∧ t'.busy = t.busy ∧ t'.secLatch = t.secLatch ∧ t'.pos = t.pos ∧ t'.bfp = t.bfp ∧ t'.bfw = t.bfw ∧
  t'.cps = t.cps ∧ t'.flt = t.flt ∧ t'.wait = t.wait

/-- A thread has fallen through to `next` under the rule of hardware loops (07 R238). -/
def fallsThrough (next : Nat) (t t' : Thread) : Prop :=
  t'.pc = (advance next t).pc ∧ t'.lv = (advance next t).lv ∧ t'.depth = (advance next t).depth

/-- An instruction has run to its end in its thread: the registers `dst` hold what it lists, every other register is unchanged, the flags
are `fl`, the PC falls through to the next instruction (07 R238), and the thread keeps what it holds. -/
def through (o : POp) (th : Thr) (f : Form) (s s' : State) (dst : Nat → Option TV) (fl : Bool × Bool × Bool × Bool) : Prop :=
  (∀ r, mget (thrOf th s').g r TV.void = (dst r).getD (mget (thrOf th s).g r TV.void)) ∧
  flags (thrOf th s') = fl ∧
  fallsThrough (nextPc o th f s) (thrOf th s) (thrOf th s') ∧
  sameHoldings (thrOf th s) (thrOf th s')

/-- An instruction has run to its end and nothing of the device outside its thread has changed. -/
def commits (o : POp) (th : Thr) (f : Form) (s s' : State) (dst : Nat → Option TV) (fl : Bool × Bool × Bool × Bool) : Prop :=
  through o th f s s' dst fl ∧ onlyThread th s s'

/-- One destination register. -/
def to1 (r : Fin 16) (x : TV) : Nat → Option TV := fun k => if k = r.val then some x else none

/-- No destination register. -/
def to0 : Nat → Option TV := fun _ => none

/-- A register's result with the tag a tagged posy gives it; in a plain32 posy every register reads as INT (07 R223). -/
def tagged (th : Thr) (s : State) (v : Word) (tag : Nat) : TV := { v := v, tag := if isPlain th s then tINT else tag }

/-- The operands have arrived, those read as values are not POISON, and no destination holds a BUF. -/
def operands (th : Thr) (s : State) (reads dsts : List Nat) : Prop :=
  arrived th s reads ∧ clean th s reads ∧ destsFree th s dsts

/-- Z and N of a result (08 R246). -/
def znOf (r : Word) : Bool × Bool := (decide (r = 0), r.msb)

/-- rd of a form. -/
def inRd (th : Thr) (s : State) (f : Form) : TV := mget (thrOf th s).g f.rd.val TV.void
/-- rs of a form. -/
def inRs (th : Thr) (s : State) (f : Form) : TV := mget (thrOf th s).g f.rs.val TV.void
/-- rt of a form. -/
def inRt (th : Thr) (s : State) (f : Form) : TV := mget (thrOf th s).g f.rt.val TV.void
/-- The immediate of a form; it is an INT (08 R246). -/
def inImm (_ : Thr) (_ : State) (f : Form) : TV := { v := f.imm, tag := tINT }

/-- An instruction that reads values and writes registers and flags completes, for every thread, form and state in which it goes ahead, its
operands let it run and `pre` holds: the registers `dst` lists take their values and the flags are `fl`; nothing else changes but the
PC. -/
def completes (i : Thr → Form → Instr) (o : POp) (reads dsts : Form → List Nat) (pre : Thr → State → Form → Prop)
    (dst : Thr → State → Form → Nat → Option TV) (fl : Thr → State → Form → Bool × Bool × Bool × Bool) : Prop :=
  ∀ (th : Thr) (f : Form) (s : State), goesAhead o th f s → operands th s (reads f) (dsts f) → pre th s f →
    ∃ s', exec (i th f) s = .next s' ∧ commits o th f s s' (dst th s f) (fl th s f)

/-- An instruction of two operands completes: rd takes the result with the tag the rule gives, the flags are those listed, and nothing
else changes but the PC. `a` and `b` give the operands, `reads` the registers they come from. -/
def binary (i : Thr → Form → Instr) (o : POp) (reads : Form → List Nat) (a b : Thr → State → Form → TV)
    (rule : Nat → Nat → Option Nat) (val : Word → Word → Bool → Word) (fl : Thread → Word → Word → Word → Bool × Bool × Bool × Bool) :
    Prop :=
  ∀ (th : Thr) (f : Form) (s : State) (tag : Nat), goesAhead o th f s → operands th s (reads f) [f.rd.val] →
    (isPlain th s = true ∨ rule (a th s f).tag (b th s f).tag = some tag) →
    let r := val (a th s f).v (b th s f).v (thrOf th s).c
    ∃ s', exec (i th f) s = .next s' ∧
      commits o th f s s' (to1 f.rd (tagged th s r tag)) (fl (thrOf th s) (a th s f).v (b th s f).v r)

/-- An instruction rd := rs op rt. -/
def binary3 (i : Thr → Form → Instr) (o : POp) (carry : Bool) (rule : Nat → Nat → Option Nat) (val : Word → Word → Bool → Word)
    (fl : Thread → Word → Word → Word → Bool × Bool × Bool × Bool) : Prop :=
  binary i o (fun f => [f.rs.val, f.rt.val] ++ if carry then [16] else []) inRs inRt rule val fl

/-- An instruction rd := rd op imm. -/
def binaryI (i : Thr → Form → Instr) (o : POp) (rule : Nat → Nat → Option Nat) (val : Word → Word → Bool → Word)
    (fl : Thread → Word → Word → Word → Bool × Bool × Bool × Bool) : Prop :=
  binary i o (fun f => [f.rd.val]) inRd inImm rule val fl

/-- The flags of an addition with carry in `cin` (08 R246): the carry out of bit 31, and signed overflow. -/
def flAdd (cin : Thread → Bool) (t : Thread) (a b r : Word) : Bool × Bool × Bool × Bool :=
  (decide (r = 0), r.msb, decide (2 ^ 32 ≤ a.toNat + b.toNat + (cin t).toNat),
    decide (a.toInt + b.toInt + (cin t).toNat < -2 ^ 31 ∨ 2 ^ 31 ≤ a.toInt + b.toInt + (cin t).toNat))

/-- The flags of a subtraction with borrow in `bin` (08 R246). -/
def flSub (bin : Thread → Bool) (t : Thread) (a b r : Word) : Bool × Bool × Bool × Bool :=
  (decide (r = 0), r.msb, decide (a.toNat < b.toNat + (bin t).toNat),
    decide (a.toInt - b.toInt - (bin t).toNat < -2 ^ 31 ∨ 2 ^ 31 ≤ a.toInt - b.toInt - (bin t).toNat))

/-- Z and N of the result; C and V as they were. -/
def flZN (t : Thread) (_ _ r : Word) : Bool × Bool × Bool × Bool := (decide (r = 0), r.msb, t.c, t.v)

/-- No flag changes. -/
def flNone (t : Thread) (_ _ _ : Word) : Bool × Bool × Bool × Bool := flags t

/-- The flags of a shift by the whole of `b` (08 R247): C takes the last bit out, `out k` for a count k from 1 to 32 and `beyond` for a
larger one, and stays at a count of 0. -/
def flShift (out : Word → Nat → Bool) (beyond : Word → Bool) (t : Thread) (a b r : Word) : Bool × Bool × Bool × Bool :=
  (decide (r = 0), r.msb, if b.toNat = 0 then t.c else if b.toNat ≤ 32 then out a b.toNat else beyond a, t.v)

/-- A shift left: the value, zeros in. -/
def shiftL (a b : Word) (_ : Bool) : Word := BitVec.ofNat 32 (a.toNat * 2 ^ b.toNat)

/-- A shift right with zeros in. -/
def shiftR (a b : Word) (_ : Bool) : Word := BitVec.ofNat 32 (a.toNat / 2 ^ b.toNat)

/-- A shift right with copies of bit 31 in. -/
def shiftA (a b : Word) (_ : Bool) : Word := BitVec.ofInt 32 (a.toInt / 2 ^ b.toNat)

/-- The tag rule TI: two INT give INT (07 R218). -/
def ruleTI (a b : Nat) : Option Nat := if a = 0 ∧ b = 0 then some 0 else none

/-- The flags of a command's thread. -/
def flKeep (th : Thr) (s : State) (_ : Form) : Bool × Bool × Bool × Bool := flags (thrOf th s)

/-- No register changes. -/
def dstNone (_ : Thr) (_ : State) (_ : Form) : Nat → Option TV := to0

/-- In a tagged posy the tags of rd and rs meet a rule. -/
def tagPair (ok : Nat → Nat → Bool) (th : Thr) (s : State) (f : Form) : Prop :=
  isPlain th s = true ∨ ok (inRd th s f).tag (inRs th s f).tag = true

/-- The lesser of rs and rt (08 R247): two TIME operands compare by the sign of the wrapped difference, others as signed or unsigned
numbers. -/
def isLess (sgnd : Bool) (th : Thr) (s : State) (f : Form) : Bool :=
  let a := inRs th s f
  let b := inRt th s f
  if !isPlain th s && a.tag == tTIME then (a.v - b.v).msb
  else if sgnd then decide (a.v.toInt < b.v.toInt) else decide (a.v.toNat < b.v.toNat)

/-- MIN, MAX, MINU or MAXU: rs where `first` says so of "rs is the lesser", or where the operands are equal; else rt. -/
def minMaxRun (i : Thr → Form → Instr) (o : POp) (sgnd : Bool) (first : Bool → Bool) : Prop :=
  completes i o (fun f => [f.rs.val, f.rt.val]) (fun f => [f.rd.val])
    (fun th s f => isPlain th s = true ∨ (inRs th s f).tag = (inRt th s f).tag ∧
      ((inRs th s f).tag = tINT ∨ (inRs th s f).tag = tTIME))
    (fun th s f => to1 f.rd (tagged th s
      (if (inRs th s f).v = (inRt th s f).v ∨ first (isLess sgnd th s f) = true then (inRs th s f).v else (inRt th s f).v)
      (inRs th s f).tag))
    flKeep

/-- An instruction rd := op rs of an INT, with an INT result. -/
def unary (i : Thr → Form → Instr) (o : POp) (val : Word → Word) (fl : Thread → Word → Word → Word → Bool × Bool × Bool × Bool) : Prop :=
  completes i o (fun f => [f.rs.val]) (fun f => [f.rd.val]) (fun th s f => allInt th s [f.rs.val])
    (fun th s f => to1 f.rd (tvInt (val (inRs th s f).v)))
    (fun th s f => fl (thrOf th s) 0 (inRs th s f).v (val (inRs th s f).v))

/-- A word of which every bit is given. -/
def ofBits (p : Nat → Bool) : Word := BitVec.ofNat 32 (((List.range 32).map (fun k => if p k then 2 ^ k else 0)).sum)

/-- A count of zeros: the least k below 32 at which a bit is found, or 32. -/
def firstSet (p : Nat → Bool) : Nat := ((List.range 32).find? p).getD 32

/-- rd and rs hold INT and give an INT result in rd (08 R248); the divisor rs is not 0; V is `v` of the operands. -/
def division (i : Thr → Form → Instr) (o : POp) (val : Word → Word → Word) (v : Word → Word → Bool) : Prop :=
  completes i o (fun f => [f.rd.val, f.rs.val]) (fun f => [f.rd.val])
    (fun th s f => allInt th s [f.rd.val, f.rs.val] ∧ (inRs th s f).v ≠ 0)
    (fun th s f => to1 f.rd (tvInt (val (inRd th s f).v (inRs th s f).v)))
    (fun th s f => let t := thrOf th s
      (t.z, t.n, t.c, v (inRd th s f).v (inRs th s f).v))

/-- A 64-bit product of rd and rs in rd, its low word, and rd + 1. -/
def wide (i : Thr → Form → Instr) (o : POp) (prod : Word → Word → BitVec 64) : Prop :=
  completes i o (fun f => [f.rd.val, f.rs.val]) (fun f => [f.rd.val, f.rd.val + 1])
    (fun th s f => allInt th s [f.rd.val, f.rs.val])
    (fun th s f k => let p := prod (inRd th s f).v (inRs th s f).v
      if k = f.rd.val then some (tvInt (p.setWidth 32))
      else if k = f.rd.val + 1 then some (tvInt ((p >>> 32).setWidth 32)) else none)
    flKeep

/-- Every side effect a thread committed earlier has been performed (08 R244): no atomic operation of it and no command with side
effects is outstanding. -/
def effectsDone (th : Thr) (s : State) : Prop :=
  (∀ a ∈ s.lck.atoms, a.tid ≠ thrNo th) ∧
  ∀ p ∈ s.cpx.ctx, ∀ k, p.2.cmd = some k → k.se = true → k.tid ≠ thrNo th

/-- A byte of a core's local memory (06 R194). -/
def cmByte (s : State) (c a : Nat) : Byte := memRd s.cores.mem 0 (cmKey c a)

/-- `n` bytes of a core's local memory as a little-endian number (07 R222). -/
def cmNum (s : State) (c a n : Nat) : Nat := leVal ((List.range n).map (fun k => cmByte s c (a + k)))

/-- An address and size meet steps 11 and 12 of 07 R235: within core-local memory and aligned. -/
def cmReach (e : Int) (n : Nat) : Prop := 0 ≤ e ∧ e + n ≤ 0x20000 ∧ e % n = 0

/-- Two states agree outside the cores' threads, commit counts and local memories. -/
def onlyCores (th : Thr) (s s' : State) : Prop :=
  s' = { s with cores := { s.cores with
    thr := s'.cores.thr, commits := s'.cores.commits, mem := s'.cores.mem, tags := s'.cores.tags, poison := s'.cores.poison } } ∧
  ∀ k, k ≠ thrNo th → thr s' k = thr s k

/-- Every byte of core-local memory outside `n` bytes from address `a` of core `c` reads as before. -/
def cmFrame (s s' : State) (c a n : Nat) : Prop :=
  ∀ k, (k < cmKey c a ∨ cmKey c a + n ≤ k) → memRd s'.cores.mem 0 k = memRd s.cores.mem 0 k

/-- The tag and the poison mark of every word but the one that holds address `a` of core `c` are as before. -/
def markFrame (s s' : State) (c a : Nat) : Prop :=
  ∀ c' a', c' * 32768 + a' / 4 ≠ c * 32768 + a / 4 → cmTag s' c' a' = cmTag s c' a' ∧ cmPoison s' c' a' = cmPoison s c' a'

/-- The tags a load of a form accepts that clears no word (07 R222). -/
def loadTag (f : Form) (wt : Nat) : Prop :=
  if sizeBytes f < 4 then wt = tINT
  else wt ≠ tBUF ∧ (wt ≤ 7 ∨ f.size = 4 ∧ (wt = tPOISON ∨ wt = tVOID))

/-- A load that clears no word: rd takes the bytes at its address, zero- or sign-extended, with the word's tag, and memory is as it was;
and load-and-clear of a word tagged BUF. `ea` is the effective address. -/
def loadRun (i : Thr → Form → Instr) (o : POp) (sx : Bool) (reads : Form → List Nat) (ea : Thr → State → Form → Int) : Prop :=
  ∀ (th : Thr) (f : Form) (s : State), goesAhead o th f s → operands th s (reads f) [f.rd.val] → allInt th s (reads f) →
    cmReach (ea th s f) (sizeBytes f) → f.err.val ≠ 2 →
    let c := th.core.val
    let a := (ea th s f).toNat
    let wt := cmTag s c a
    let v := cmNum s c a (sizeBytes f)
    let w := if sx then (BitVec.ofNat (8 * sizeBytes f) v).signExtend 32 else BitVec.ofNat 32 v
    cmPoison s c a = false →
    ((isPlain th s = true ∨ loadTag f wt) →
      ∃ s', exec (i th f) s = .next s' ∧ commits o th f s s' (to1 f.rd (tagged th s w wt)) (flags (thrOf th s))) ∧
    (isPlain th s = false → sizeBytes f = 4 → wt = tBUF →
      ∃ s', exec (i th f) s = .next s' ∧ through o th f s s' (to1 f.rd { v := w, tag := tBUF }) (flags (thrOf th s)) ∧
        cmTag s' c a = tVOID ∧ cmNum s' c a 4 = 0 ∧ cmFrame s s' c a 4 ∧ markFrame s s' c a ∧ onlyCores th s s')

/-- What the value register of a store must hold (07 R222): INT for B and H; any tag but VOID, with POISON a fault of its own, for W;
any tag that exists for T. -/
def storeValue (th : Thr) (s : State) (f : Form) (r : Nat) : Prop :=
  r ∉ (thrOf th s).busy ∧ (isPlain th s = true ∧ clean th s [r] ∨ isPlain th s = false ∧
    (if sizeBytes f < 4 then tagR (thrOf th s) r = tINT
     else tagR (thrOf th s) r ≤ 7 ∨ f.size = 4 ∧ (tagR (thrOf th s) r = tPOISON ∨ tagR (thrOf th s) r = tVOID)))

/-- A store: its bytes take the value of register `val f`, and every other byte of memory is as it was; a byte or half-word into a VOID
word leaves the word's other bytes 0 (07 R222). The word takes the value's tag, and a BUF leaves its register VOID (07 R221). -/
def storeRun (i : Thr → Form → Instr) (o : POp) (val : Form → Nat) (addr : Form → List Nat) (ea : Thr → State → Form → Int) : Prop :=
  ∀ (th : Thr) (f : Form) (s : State), goesAhead o th f s → operands th s (addr f) [] → allInt th s (addr f) →
    storeValue th s f (val f) → cmReach (ea th s f) (sizeBytes f) →
    let c := th.core.val
    let a := (ea th s f).toNat
    let n := sizeBytes f
    let wt := cmTag s c a
    let v := gval th s (val f)
    let buf := isPlain th s = false ∧ tagR (thrOf th s) (val f) = tBUF
    (isPlain th s = true ∨ if n < 4 then wt = tINT ∨ wt = tVOID else wt ≠ tBUF ∧ (wt ≤ 8 ∨ wt = tVOID)) →
    let whole := isPlain th s = false ∧ n < 4 ∧ wt = tVOID
    ∃ s', exec (i th f) s = .next s' ∧
      through o th f s s' (fun k => if k = val f ∧ buf then some TV.void else none) (flags (thrOf th s)) ∧
      (∀ k, k < n → cmByte s' c (a + k) = BitVec.ofNat 8 (v.toNat / 256 ^ k)) ∧
      (∀ k, whole → k < 4 → (a / 4 * 4 + k < a ∨ a + n ≤ a / 4 * 4 + k) → cmByte s' c (a / 4 * 4 + k) = 0) ∧
      (if whole then cmFrame s s' c (a / 4 * 4) 4 else cmFrame s s' c a n) ∧
      cmTag s' c a = (if isPlain th s then wt else if n < 4 then tINT else tagR (thrOf th s) (val f)) ∧
      cmPoison s' c a = (if n = 4 then false else cmPoison s c a) ∧
      markFrame s s' c a ∧ onlyCores th s s'

/-- Base plus displacement: the register unsigned, the immediate signed, no wrapping (08 R249). -/
def addrDisp (base : Thr → State → Form → TV) (th : Thr) (s : State) (f : Form) : Int := ((base th s f).v.toNat : Int) + f.imm.toInt

/-- The sum of rs and rt, both unsigned, no wrapping (08 R249). -/
def addrSum (th : Thr) (s : State) (f : Form) : Int := ((inRs th s f).v.toNat : Int) + ((inRt th s f).v.toNat : Int)

/-- The bytes a program sees of the packet its thread holds: the frame as received, cut to the window (08 R252). -/
def window (th : Thr) (s : State) : List Byte :=
  (thrPkt s (thrNo th)).win.take (winSize s (thrPkt s (thrNo th)))

/-- A header-window load: rd takes the bytes at the offset in network order. -/
def windowRun (i : Thr → Form → Instr) (o : POp) (reads : Form → List Nat) (pre : Thr → State → Form → Prop)
    (ofs : Thr → State → Form → Int) : Prop :=
  completes i o reads (fun f => [f.rd.val])
    (fun th s f => pre th s f ∧ (thrOf th s).pkt.tag ≠ tVOID ∧ f.err.val ≠ 2 ∧ 0 ≤ ofs th s f ∧
      ofs th s f + sizeBytes f ≤ (window th s).length)
    (fun th s f => to1 f.rd (tvInt (BitVec.ofNat 32 (beVal (((window th s).drop (ofs th s f).toNat).take (sizeBytes f))))))
    flKeep

/-- A word of the parse result in the thread's context block (09 R265). -/
def parseWord (th : Thr) (s : State) (k : Nat) : Nat := cmNum s th.core.val (0x1F800 + 0x100 * th.thread.val + 0x20 + 4 * k) 4

/-- HOFS, HLEN and HTYPE (08 R253): for a header below HDR_COUNT the field of `2 ^ w` values from bit `lo` of its entry, Z clear; for
another 0, Z set. -/
def headerRun (i : Thr → Form → Instr) (o : POp) (lo w tag : Nat) : Prop :=
  completes i o (fun _ => []) (fun f => [f.rd.val])
    (fun th s f => (thrOf th s).pkt.tag ≠ tVOID ∧
      ∀ k, (k = 0 ∨ k = 4 + f.imm.toNat) → cmPoison s th.core.val (0x1F800 + 0x100 * th.thread.val + 0x20 + 4 * k) = false)
    (fun th s f => to1 f.rd (tagged th s
      (if f.imm.toNat < parseWord th s 0 / 2 ^ 27 then BitVec.ofNat 32 (parseWord th s (4 + f.imm.toNat) / 2 ^ lo % 2 ^ w) else 0) tag))
    (fun th s f => let t := thrOf th s
      (decide (¬f.imm.toNat < parseWord th s 0 / 2 ^ 27), t.n, t.c, t.v))

/-- An instruction that branches: the registers `dst` take their values, the PC is `pc`, the flags and loops are as they were, and
nothing else of the device changes. -/
def branches (th : Thr) (s s' : State) (dst : Nat → Option TV) (pc : Nat) : Prop :=
  (∀ r, mget (thrOf th s').g r TV.void = (dst r).getD (mget (thrOf th s).g r TV.void)) ∧
  flags (thrOf th s') = flags (thrOf th s) ∧ (thrOf th s').pc = pc ∧ (thrOf th s').lv = (thrOf th s).lv ∧
  (thrOf th s').depth = (thrOf th s).depth ∧ sameHoldings (thrOf th s) (thrOf th s') ∧ onlyThread th s s'

/-- The target a form names: with IMX the immediate, else the address after the instruction plus the immediate taken as signed
(07 R226). -/
def target (o : POp) (th : Thr) (f : Form) (s : State) : Nat :=
  if f.imx then f.imm.toNat else ((nextPc o th f s : Int) + f.imm.toInt).toNat

/-- The return address with tag CODE (08 R255). -/
def returnAddr (o : POp) (th : Thr) (f : Form) (s : State) : TV := tagged th s (BitVec.ofNat 32 (nextPc o th f s)) tCODE

/-- The register of a jump holds CODE in a tagged posy, and an address of the store in either mode (08 R254). -/
def codeIn (th : Thr) (s : State) (x : TV) : Prop := (isPlain th s = true ∨ x.tag = tCODE) ∧ x.v.toNat < 524288

/-- A loop level started with a count (07 R237). -/
def loopRun (i : Thr → Form → Instr) (o : POp) (reads : Form → List Nat) (count : Thr → State → Form → Word) : Prop :=
  ∀ (th : Thr) (f : Form) (s : State), goesAhead o th f s → operands th s (reads f) [] → allInt th s (reads f) →
    (thrOf th s).depth < 4 →
    let next := nextPc o th f s
    (count th s f = 0 → ∃ s', exec (i th f) s = .next s' ∧ branches th s s' to0 (next + f.imm.toNat)) ∧
    (count th s f ≠ 0 → ∃ s', exec (i th f) s = .next s' ∧ onlyThread th s s' ∧ (thrOf th s').pc = next ∧
      (thrOf th s').depth = (thrOf th s).depth + 1 ∧
      lvOf (thrOf th s') (thrOf th s).depth = { ls := next, le := next + f.imm.toNat, lc := count th s f } ∧
      (∀ k, k ≠ (thrOf th s).depth → lvOf (thrOf th s') k = lvOf (thrOf th s) k) ∧
      (thrOf th s').g = (thrOf th s).g ∧ flags (thrOf th s') = flags (thrOf th s) ∧ sameHoldings (thrOf th s) (thrOf th s'))

/-- Two states agree outside the threads and the commit counts, and in every thread but the command's. -/
def outside (th : Thr) (t s' : State) : Prop :=
  s' = { t with cores := { t.cores with thr := s'.cores.thr, commits := s'.cores.commits } } ∧
  ∀ k, k ≠ thrNo th → thr s' k = thr t k

/-- An instruction at the PC of thread `t0` has committed with its thread as `t`: it falls through to `next` (07 R238), and every other
part of the thread is that of `t`. -/
def fellFrom (next : Nat) (t0 t t' : Thread) : Prop := t' = { advance next t with lastPc := t0.pc, bkSkip := false }

/-- An instruction completes, for every thread, form and state in which it goes ahead, its operands let it run and `pre` holds: its thread
is `t` and falls through, and the rest of the device is that of `eff`. -/
def runsTo (i : Thr → Form → Instr) (o : POp) (reads dsts : Form → List Nat) (pre : Thr → State → Form → Prop)
    (t : Thr → State → Form → Thread) (eff : Thr → State → Form → State) : Prop :=
  ∀ (th : Thr) (f : Form) (s : State), goesAhead o th f s → operands th s (reads f) (dsts f) → pre th s f →
    ∃ s', exec (i th f) s = .next s' ∧ fellFrom (nextPc o th f s) (thrOf th s) (t th s f) (thrOf th s') ∧ outside th (eff th s f) s'

/-- Nothing of the device changes outside the thread. -/
def noEffect (_ : Thr) (s : State) (_ : Form) : State := s

/-- An instruction puts its thread into a wait and does not commit: the thread is `t`, and the rest of the device is that of `eff`. -/
def waitsAs (i : Thr → Form → Instr) (o : POp) (reads dsts : Form → List Nat) (pre : Thr → State → Form → Prop)
    (t : Thr → State → Form → Thread) (eff : Thr → State → Form → State) : Prop :=
  ∀ (th : Thr) (f : Form) (s : State), goesAhead o th f s → operands th s (reads f) (dsts f) → pre th s f →
    ∃ s', exec (i th f) s = .next s' ∧ thrOf th s' = { t th s f with lastPc := (thrOf th s).pc } ∧ outside th (eff th s f) s'

/-- A condition that always holds. -/
def always (_ : Thr) (_ : State) (_ : Form) : Prop := True

/-- A fused instruction with two INT sources in rd and rs (10 R289): `val` of them goes to rd, no flag changes. -/
def fused2 (i : Thr → Form → Instr) (o : POp) (val : Form → Word → Word → Word) : Prop :=
  completes i o (fun f => [f.rs.val, f.rd.val]) (fun f => [f.rd.val]) (fun th s f => allInt th s [f.rs.val, f.rd.val])
    (fun th s f => to1 f.rd (tvInt (val f (inRd th s f).v (inRs th s f).v))) flKeep

/-- A CRC step over the low 1, 2 or 4 bytes of rs (10 R289). -/
def crcRun (i : Thr → Form → Instr) (o : POp) (crc : Nat → List Byte → Nat) : Prop :=
  fused2 i o (fun f d a => BitVec.ofNat 32 (crc d.toNat ((List.range (2 ^ f.imm.toNat)).map (fun k => BitVec.ofNat 8 (a.toNat / 256 ^ k)))))

/-- The Toeplitz step (10 R289): each set bit of the top `n` bits of rs[n-1:0], most significant first, puts the 32 key bits that start at
its position into the hash. -/
def toeplitz (key pos n : Nat) (a : Word) : Word :=
  (List.range n).foldl (fun h j => if a.getLsbD (n - 1 - j) then h ^^^ BitVec.ofNat 32 (key * 2 ^ (pos + j) / 2 ^ 288) else h) 0

/-- A Toeplitz instruction: rd takes rd xor the step, and POS advances, up to 320. -/
def toeplitzRun (i : Thr → Form → Instr) (o : POp) (n : Nat) (key : Thr → State → Nat) : Prop :=
  runsTo i o (fun f => [f.rs.val, f.rd.val]) (fun f => [f.rd.val]) (fun th s f => allInt th s [f.rs.val, f.rd.val])
    (fun th s f => let t := thrOf th s
      setG { t with pos := Nat.min 320 (t.pos + n) } f.rd.val
        (tvInt ((inRd th s f).v ^^^ toeplitz (key th s) t.pos n (inRs th s f).v)))
    noEffect

/-- The ones'-complement sum of two 16-bit numbers with end-around carry (10 R289). -/
def onesSum (a b : Nat) : Nat := if 65535 < a + b then a + b - 65535 else a + b

/-- The thread an identifier names (08 R261). -/
def namedThr (v : Word) : Nat := v.toNat / 256 % 256 * 8 + v.toNat % 8

/-- A value is a thread identifier, with at most `r` in [19:16], of a thread of the own instance (08 R261, 06 R197). -/
def namesThr (th : Thr) (s : State) (r : Nat) (v : Word) : Prop :=
  v.toNat < 65536 * (r + 1) ∧ v.toNat / 8 % 32 = 0 ∧ v.toNat / 256 % 256 < 132 ∧
  coreInst s (namedThr v / 8) = some (tinst s (thrNo th))

/-- The instruction's rs names a thread under the own supervision. -/
def supervisesRs (r : Nat) (th : Thr) (s : State) (f : Form) : Prop :=
  namesThr th s r (inRs th s f).v ∧ supervises s (thrNo th) (namedThr (inRs th s f).v / 8) = true

/-- The thread rs names. -/
def rsThr (th : Thr) (s : State) (f : Form) : Nat := namedThr (inRs th s f).v

/-- The thread rs names is BOUND or HELD. -/
def rsStill (th : Thr) (s : State) (f : Form) : Prop :=
  (thr s (rsThr th s f)).st = .bound ∨ (thr s (rsThr th s f)).st = .held

/-- A command's thread with another Z. -/
def withZ (th : Thr) (s : State) (b : Bool) : Thread :=
  let t := thrOf th s
  { t with z := b }

/-- A command's thread with a register written. -/
def withG (th : Thr) (s : State) (r : Fin 16) (x : TV) : Thread := setG (thrOf th s) r.val x

/-- A special register that reads as INT (07 R216). -/
def specialWord (th : Thr) (s : State) (k : Nat) : Word :=
  let t := thrOf th s
  if k = 0 then BitVec.ofNat 32 (t.z.toNat + 2 * t.n.toNat + 4 * t.c.toNat + 8 * t.v.toNat + 16 * (!isPlain th s).toNat)
  else if k = 1 then BitVec.ofNat 32 (256 * th.core.val + th.thread.val)
  else if k = 2 then BitVec.ofNat 32 (((corePosy s th.core.val).map (·.id)).getD 255)
  else if k = 3 then BitVec.ofNat 32 (tinst s (thrNo th))
  else if k ≤ 11 then BitVec.ofNat 32 (lvOf t (k - 8)).ls
  else if k ≤ 15 then BitVec.ofNat 32 (lvOf t (k - 12)).le
  else if k ≤ 19 then (lvOf t (k - 16)).lc
  else BitVec.ofNat 32 t.depth

/-- No journal records and no replay runs. -/
def unrecorded (s : State) : Prop := s.jnl.st ≠ .run ∧ s.jnl.st ≠ .post ∧ s.jnl.rp ≠ .run

/-- Two states agree outside the cores, and but for the count of free values drawn. -/
def drew (th : Thr) (s s' : State) : Prop := ∃ n, outside th { s with free := n } s'

/-- A packet's disposition by the thread that holds it (09 R269, 05 R176): the context `x` of packet `p` at `cell`, not UNORD, is DONE with
the disposition, the packet takes the thread's edit list, and the thread lets go of it; the matching-store entry is freed. Nothing else
of the device changes. -/
def disposes (i : Thr → Form → Instr) (o : POp) (reads : Form → List Nat) (pre : Thr → State → Form → Prop)
    (d : Thr → State → Form → Disp) : Prop :=
  ∀ (th : Thr) (f : Form) (s : State) (x cell : Nat) (p : Pkt), goesAhead o th f s → operands th s (reads f) [] →
    allInt th s (reads f) → pre th s f → (thrOf th s).pkt.tag ≠ tVOID → (thrOf th s).ctx = some x → (ctxOf s x).cell = some cell →
    (ctxOf s x).st ≠ .unord → pktOf s cell = some p →
    let t := thrOf th s
    ∃ s', exec (i th f) s = .next s' ∧
      fellFrom (nextPc o th f s) t { t with pkt := TV.void, ctx := none, entry := none, edit := [] } (thrOf th s') ∧
      (let c := ctxOf s x
       ctxOf s' x = { c with st := .done, disp := d th s f }) ∧ pktOf s' cell = some { p with edits := t.edit, saved := [] } ∧ itemOf s' x = none ∧
      (∀ y, y ≠ x → ctxOf s' y = ctxOf s y ∧ itemOf s' y = itemOf s y) ∧ (∀ y, y ≠ cell → pktOf s' y = pktOf s y) ∧
      outside th { s with dsp := s'.dsp, port := { s.port with sharedUsed := s.port.sharedUsed - p.saved.length } } s'

/-- What the words of an edit operation are in two registers (09 R272). -/
def editOp (a b : Word) : EditOp :=
  { op := a.toNat % 256, a := a.toNat / 256 % 256, b := a.toNat / 65536, imm := b.toNat }

/-- LOCK, LOCKI and FLOCK (09 R280, 11 R321): a free lock for which nothing waits is granted at once with its status; one that another
holds blocks the thread. -/
def lockRun (i : Thr → Form → Instr) (o : POp) (reads : Form → List Nat) (num : Thr → State → Form → Nat) (form : Nat → Bool) : Prop :=
  ∀ (th : Thr) (f : Form) (s : State), goesAhead o th f s → operands th s (reads f) [] → allInt th s (reads f) → unrecorded s →
    form (num th s f) = true → lockInst s (num th s f) = some (tinst s (thrNo th)) →
    let n := num th s f
    let t := thrOf th s
    ((lockOf s n).holder = none → lockWaiters s n = [] → (∀ w, s.lck.stwWait = some w → w.1 ≠ n) →
      ∃ s', exec (i th f) s = .next s' ∧ lockOf s' n = { holder := some (thrNo th), status := (lockOf s n).status } ∧
        (∀ m, m ≠ n → lockOf s' m = lockOf s m) ∧ (∀ k, k ≠ thrNo th → thr s' k = thr s k) ∧
        (thrOf th s').g = t.g ∧ flags (thrOf th s') = (true, t.n, t.c, decide ((lockOf s n).status ≠ 0)) ∧
        fallsThrough (nextPc o th f s) t (thrOf th s') ∧ sameHoldings t { thrOf th s' with wait := t.wait } ∧ s'.cores.mem = s.cores.mem) ∧
    (∀ h, (lockOf s n).holder = some h → h ≠ thrNo th →
      ∃ s', exec (i th f) s = .next s' ∧ s'.lck = s.lck ∧ (∀ k, k ≠ thrNo th → thr s' k = thr s k) ∧
        thrOf th s' = { t with
          lastPc := t.pc, st := .blocked, wait := .lock n, wseq := s.cores.seq, wnext := nextPc o th f s })

/-- UNLOCK and FUNLOCK of a lock the thread holds and for which nothing waits: it is free, its status 0 (11 R322). -/
def unlockRun (i : Thr → Form → Instr) (o : POp) (reads : Form → List Nat) (num : Thr → State → Form → Nat) (form : Nat → Bool) : Prop :=
  runsTo i o reads (fun _ => [])
    (fun th s f => allInt th s (reads f) ∧ form (num th s f) = true ∧ lockInst s (num th s f) = some (tinst s (thrNo th)) ∧
      (lockOf s (num th s f)).holder = some (thrNo th) ∧ lockWaiters s (num th s f) = [] ∧
      ∀ w, s.lck.stwWait = some w → w.1 ≠ num th s f)
    (fun th s _ => thrOf th s)
    (fun th s f => setLock (num th s f) { holder := none, status := 0 } s)

/-- The fast lock an immediate names in the thread's cluster (11 R319). -/
def fastNum (th : Thr) (s : State) (f : Form) : Nat := 2 ^ 31 + 256 * clusterOf s th.core.val + f.imm.toNat

/-- The word an atomic address names (11 R329): bit 31 selects DRAM, from DWIN on. -/
def atomPlace (th : Thr) (s : State) (v : Word) : Bool × Nat :=
  let i := tinst s (thrNo th)
  if v.msb then (true, instF s i (·.dramBase) * 2 ^ 20 + (dwinOf s i + v.toNat % 2 ^ 31)) else (false, v.toNat)

/-- The address is aligned and in the instance's own memory. -/
def atomReach (th : Thr) (s : State) (v : Word) : Prop :=
  let i := tinst s (thrNo th)
  if v.msb then dwinOf s i + v.toNat % 2 ^ 31 < instF s i (·.dramSize) * 2 ^ 20 ∧ (dwinOf s i + v.toNat % 2 ^ 31) % 4 = 0
  else v.toNat < 2 ^ 21 ∧ scratchOf s i v.toNat = true ∧ v.toNat % 4 = 0

/-- An atomic operation commits at issue (09 R282): its request waits for the memory controller, and the registers its results go to are
marked as not arrived. -/
def atomRun (i : Thr → Form → Instr) (o : POp) (op : Nat) (reads : Form → List Nat) (late : Form → List Nat) : Prop :=
  runsTo i o reads (fun f => [f.rd.val]) (fun th s f => allInt th s (reads f) ∧ atomReach th s (inRs th s f).v)
    (fun th s f => let t := thrOf th s
      { t with busy := t.busy ++ late f })
    (fun th s f =>
      let p := atomPlace th s (inRs th s f).v
      cnt (lckCnt (tinst s (thrNo th)) (if p.1 then 6 else 5)) { s with lck := { s.lck with atoms := s.lck.atoms ++
        [{ tid := thrNo th, op := op, dram := p.1, addr := p.2, val := (inRt th s f).v, cmp := (inRd th s f).v, rd := f.rd.val }] } })

/-- The cluster of a command's thread. -/
def ownCluster (th : Thr) (s : State) : Nat := clusterOf s th.core.val

/-- The number of the context of unit `u` that a thread holds, if any. -/
def ownCtx (th : Thr) (s : State) (u : Nat) : Option Nat := heldCpx (thrOf th s) u

/-- A GO (10 R295): with a context of the unit and no command outstanding in it, and operands of the tags the entry requires, the command
is outstanding with a copy of its operands, and c0 and the result registers are marked. -/
def goRun (i : Thr → Form → Instr) (o : POp) (u code : Nat) (tags : List (Nat × TV) → List (Nat × List Nat)) (res : List Nat) (se : Bool) :
    Prop :=
  ∀ (th : Thr) (f : Form) (s : State) (n : Nat), goesAhead o th f s → ownCtx th s u = some n →
    let k := ownCluster th s
    let y := cpxOf s k u n
    y.cmd = none → (isPlain th s = true ∨ (∀ p ∈ tags y.c, (creg y.c p.1).tag ∈ p.2) ∧ ∀ r ∈ res, (creg y.c r).tag ≠ tBUF) →
    ∃ s', exec (i th f) s = .next s' ∧ fellFrom (nextPc o th f s) (thrOf th s) (thrOf th s) (thrOf th s') ∧
      outside th (cnt (cpxCnt k u 0) (setCpx k u n { y with
        cmd := some { code := code, ops := y.c, tid := thrNo th, se := se }, sb := 0 :: res, staged := false, from? := [] } s)) s'

/-- Operand registers that hold INT, or INT or VOID. -/
def plainOps (l : List Nat) : List (Nat × List Nat) := l.map (fun n => (n, [tINT, tVOID]))

/-- The EXT field of MOV in register `n`: BUF where the SPACE two registers before is 3 (10 R310). -/
def extOp (c : List (Nat × TV)) (n : Nat) : Nat × List Nat := (n, if (creg c (n - 2)).v = 3 then [tBUF] else [tINT, tVOID])

/-- The words of a block of core-local memory a program hands over. -/
def blockWords (th : Thr) (s : State) (a n : Nat) : List Word :=
  (List.range n).map (fun k => BitVec.ofNat 32 (cmNum s th.core.val (a + 4 * k) 4))

/-- A block of `n` words at an address in rs may be read whole (07 R235): in bounds, aligned, without error, INT. -/
def blockOk (th : Thr) (s : State) (f : Form) (n : Nat) : Prop :=
  let a := (inRs th s f).v.toNat
  a + 4 * n ≤ 0x20000 ∧ a % 4 = 0 ∧ f.err.val ≠ 2 ∧
  ∀ k, k < n → cmPoison s th.core.val (a + 4 * k) = false ∧ (isPlain th s = true ∨ cmTag s th.core.val (a + 4 * k) = tINT)

/-- A buffer of a pool in the pool area, owned by the thread's instance (12 R333 to R337): its handle, pool and index. -/
def areaBuf (th : Thr) (s : State) (h : Word) (k j : Nat) : Prop :=
  let i := tinst s (thrNo th)
  h = bufHandle i k j ∧ i < 32 ∧ k < 16 ∧ j < poolCount s k ∧ poolCount s k ≤ 2 ^ 20 ∧ ownsPool s i k = true ∧ poolValid s k = true ∧
  rb s (poolCfg k) 30 = false

/-- The first byte of buffer `j` of a pool in the pool area (12 R334). -/
def areaBase (s : State) (k j : Nat) : Nat := rf s (poolCfg k + 4) 16 0 * 4096 + j * poolSize s k

/-- A requester's write of the command register at an offset is admitted: the register exists, its window holds it, and it refuses no such
requester (20 R526). -/
def mayWrite (r : Req) (off : Nat) (s : State) : Prop := access r off true s = none

/-- A requester's read is admitted. -/
def mayRead (r : Req) (off : Nat) (s : State) : Prop := access r off false s = none

/-- A command completes in a state that meets `post`. -/
def gives (c : Instr) (s : State) (post : State → Prop) : Prop := ∃ t, exec c s = .next t ∧ post t

/-- A command leads to exactly this state. -/
def becomes (c : Instr) (s t : State) : Prop := exec c s = .next t

/-- Two states agree but for registers, ports and what was sent. -/
def onlyPorts (s t : State) : Prop := t = { s with regs := t.regs, port := t.port, outs := t.outs }

/-- Two states agree but for registers. -/
def onlyRegs (s t : State) : Prop := t = { s with regs := t.regs }

/-- The words of registers but those in `l` are unchanged. -/
def regsBut (l : List Nat) (s t : State) : Prop := ∀ k, k ∉ l → rv t k = rv s k

/-- What a commit of instance `i` into slot `k` leads to (R138 to R140). -/
def epochTaken (i k : Nat) (s t : State) : Prop :=
  rf t (epochSts i k) 31 30 = 1 ∧ rf t (epochSts i k) 15 0 = rf s (0x1401008 + 0x10 * i) 15 0 % 65535 + 1 ∧
  rf t (epochSts i k) 29 16 = 0 ∧ rb t (epochRes i) 30 = false ∧
  (∀ o, epochCur s i = some o → rf t (epochSts i o) 31 30 = if rf s (epochSts i o) 29 16 = 0 then 0 else 2) ∧
  ∀ off r, r ∈ ruleRanges i → r.1 ≤ off → off < r.2 → er t i k off = rShow s off

/-- A thread restarts after a hardware-class fault, which its supervisor is told of (R199, R202, R206). -/
def hwMasked (c : Instr) (t : Thr) (code : Nat) (s : State) : Prop :=
  let n := tidTh t
  ∀ x u, faultSup s n = some (x, u) → u ≠ n → (thr s u).st = .ready → (thr s u).evq.length < 16 → (thr s u).fq = [] →
    (hwWindow s t.core.val).length + 1 < rf s 0x2808008 31 24 → (thr s n).ctx = none → (thr s n).entry = none →
    (thr s n).cps = [] → locksHeld s n = [] →
    gives c s (fun s' => (thr s' n).st = .ready ∧ (thr s' n).pc = entryOf s n (isSup s n) ∧ (thr s' n).g = [] ∧
      (thr s' n).depth = 0 ∧ (thr s' n).base = basePrio s n ∧ (thr s' n).flt = none ∧
      (thr s' u).evq = (thr s u).evq ++ [faultEv x n (thr s n).pc code 1 0 false] ∧
      (rv s' (0x2805400 + 0x10 * t.core.val)).toNat = code * 2 ^ 24 + t.thread.val * 2 ^ 21 + 2 ^ 20 ∧
      (rv s' (0x2805404 + 0x10 * t.core.val)) = BitVec.ofNat 32 (thr s n).pc)

/-- The completion of a command `code` of unit `u` (R297, R298, R305): c0 holds its STATUS, `res` its result registers, every other
register is as it was, the context takes commands again and a holder in STALL goes on; `eff` is what the command did. -/
def lands (u : Fin 7) (code : Nat) (ok : CopCx → State → Prop) (st : Nat) (res : CopCx → State → List (Nat × TV))
    (eff : CopCx → State → State → Prop) : Prop :=
  ∀ (k : Fin 32) (n : Fin 8) (vd : Word) (s : State) (c : CpxCmd) (tid : Nat),
    let y := cpxOf s k.val u.val n.val
    let x : CopCx := { k := k.val, i := (clusterInst s k.val).getD 0, tid := c.tid, plain := plainOf s c.tid, ops := c.ops,
                       bad := false, vd := vd }
    y.cmd = some c → c.code = code → y.releasing = false → y.holder = some tid → ok x s →
    gives (.commandComplete k u n false vd) s (fun t =>
      let z := cpxOf t k.val u.val n.val
      z.cmd = none ∧ z.sb = [] ∧ z.holder = y.holder ∧ creg z.c 0 = tvInt (BitVec.ofNat 32 st) ∧
      (∀ p ∈ res x s, creg z.c p.1 = p.2) ∧ (∀ r, r ≠ 0 → (∀ p ∈ res x s, p.1 ≠ r) → creg z.c r = creg y.c r) ∧
      ((thr s tid).st = .stall → (thr t tid).st = .ready) ∧ eff x s t)

/-- A counter pair of DRAM holds these packets and bytes (R151, R309). -/
def pairIs (t : State) (a p b : Nat) : Prop := dram64 t a = p ∧ dram64 t (a + 8) = b

/-- The bytes of DRAM outside `n` bytes from `a` are the same. -/
def dramBut (a n : Nat) (s t : State) : Prop := ∀ j, ¬(a ≤ j ∧ j < a + n) → memRd t.dram 0 j = memRd s.dram 0 j

/-- A program-class fault of a command's thread, delivered to its supervisor (R199 to R201, R206, R213): the thread is HELD at its PC
with its registers, the fault log of its core and the supervisor's queue hold the fault, and memory and every other thread are as
they were. -/
def heldBy (c : Instr) (th : Thr) (s : State) (code addr next : Nat) : Prop :=
  ∀ x u, faultSup s (thrNo th) = some (x, u) → (thr s u).st ≠ .getw → (thr s u).evq.length < 16 → (thr s u).fq = [] →
    let t := thrOf th s
    let info2 := if code = 3 ∨ code = 4 then addr else 0
    gives c s (fun s' => (thrOf th s').st = .held ∧ (thrOf th s').flt.map (fun k => (k.code, k.skipTo)) = some (code, next) ∧
      (thrOf th s').g = t.g ∧ (thrOf th s').pc = t.pc ∧ flags (thrOf th s') = flags t ∧ (thrOf th s').pkt = t.pkt ∧
      (thrOf th s').ctx = t.ctx ∧
      (thr s' u).evq = (thr s u).evq ++ [faultEv x (thrNo th) t.pc code 0 info2 (holdsPkt s (thrNo th))] ∧
      rv s' (0x2805400 + 0x10 * th.core.val) = BitVec.ofNat 32 (code * 2 ^ 24 + th.thread.val * 2 ^ 21) ∧
      rv s' (0x2805404 + 0x10 * th.core.val) = BitVec.ofNat 32 t.pc ∧
      (∀ k, k ≠ thrNo th → k ≠ u → thr s' k = thr s k) ∧ s'.cores.mem = s.cores.mem ∧ s'.dsp = s.dsp)

/-- The form of the registers rd, rs, rt and an immediate, without a prefix. -/
def bare (rd rs rt : Fin 16) (imm : Word) : Form :=
  { size := 0, pred := 0, imx := false, co := false, rd := rd, rs := rs, rt := rt, imm := imm, err := 0 }

/-- All of these bytes, at an address, are this instruction. -/
def decodesTo (b : List Byte) (pc : Nat) (o : POp) (f : Form) : Prop := petalDecode b pc = some (o, f, b.length)

end Sys2Proof.Machine
end

