-- ==== Sys2Proof/Certificates/Slice0/Obligations.lean ====
section
/-! DEFINITION. The statements for the provers. -/

open Sys2Proof Sys2Proof.Machine

/-- R246, R247: an instruction rd := rs op rt of the arithmetic, logic and shift group writes its result with the tag its class
gives and sets its flags, and changes nothing else but the PC. R246, R247: the immediate forms rd := rd op imm. R246, R247:
comparisons set the flags of the subtraction or the AND and write no register; MIN, MAX, MINU and MAXU pick an operand and set
no flag. -/
def Obligations.IntegerArithmetic : Prop :=
  (
  binary3 .add .add false taAdd (fun a b _ => a + b) (flAdd (fun _ => false)) ∧
  binary3 .sub .sub false taSub (fun a b _ => a - b) (flSub (fun _ => false)) ∧
  binary3 .addc .addc true ruleTI (fun a b c => a + b + BitVec.ofNat 32 c.toNat) (flAdd (·.c)) ∧
  binary3 .subc .subc true ruleTI (fun a b c => a - b - BitVec.ofNat 32 c.toNat) (flSub (·.c)) ∧
  binary3 .and .andOp false tlTag (fun a b _ => a &&& b) flZN ∧
  binary3 .or .orOp false tlTag (fun a b _ => a ||| b) flZN ∧
  binary3 .xor .xorOp false tlTag (fun a b _ => a ^^^ b) flZN ∧
  binary3 .mul .mul false ruleTI (fun a b _ => a * b) flZN ∧
  binary3 .rol .rol false ruleTI (fun a b _ => a.rotateLeft (b.toNat % 32)) flZN ∧
  binary3 .shl .shl false ruleTI shiftL (flShift (fun a k => a.getLsbD (32 - k)) (fun _ => false)) ∧
  binary3 .shr .shr false ruleTI shiftR (flShift (fun a k => a.getLsbD (k - 1)) (fun _ => false)) ∧
  binary3 .sar .sar false ruleTI shiftA (flShift (fun a k => a.getLsbD (k - 1)) (fun a => a.msb))) ∧
  (
  binaryI .addi .addi taAdd (fun a b _ => a + b) (flAdd (fun _ => false)) ∧
  binaryI .subi .subi taSub (fun a b _ => a - b) (flSub (fun _ => false)) ∧
  binaryI .andi .andi ruleTI (fun a b _ => a &&& b) flZN ∧
  binaryI .ori .ori ruleTI (fun a b _ => a ||| b) flZN ∧
  binaryI .xori .xori ruleTI (fun a b _ => a ^^^ b) flZN ∧
  binaryI .roli .roli ruleTI (fun a b _ => a.rotateLeft (b.toNat % 32)) flZN ∧
  binaryI .shli .shli ruleTI shiftL (flShift (fun a k => a.getLsbD (32 - k)) (fun _ => false)) ∧
  binaryI .shri .shri ruleTI shiftR (flShift (fun a k => a.getLsbD (k - 1)) (fun _ => false)) ∧
  binaryI .sari .sari ruleTI shiftA (flShift (fun a k => a.getLsbD (k - 1)) (fun a => a.msb))) ∧
  (
  completes .cmp .cmp (fun f => [f.rd.val, f.rs.val]) (fun _ => []) (tagPair (fun a b => a == b && [0, 1, 3, 5].contains a)) dstNone
    (fun th s f => flSub (fun _ => false) (thrOf th s) (inRd th s f).v (inRs th s f).v ((inRd th s f).v - (inRs th s f).v)) ∧
  completes .cmpi .cmpi (fun f => [f.rd.val]) (fun _ => []) (fun th s f => allInt th s [f.rd.val]) dstNone
    (fun th s f => flSub (fun _ => false) (thrOf th s) (inRd th s f).v f.imm ((inRd th s f).v - f.imm)) ∧
  completes .tst .tst (fun f => [f.rd.val, f.rs.val]) (fun _ => []) (tagPair (fun a b => a == b && [0, 1].contains a)) dstNone
    (fun th s f => flZN (thrOf th s) 0 0 ((inRd th s f).v &&& (inRs th s f).v)) ∧
  completes .tsti .tsti (fun f => [f.rd.val]) (fun _ => []) (fun th s f => allInt th s [f.rd.val]) dstNone
    (fun th s f => flZN (thrOf th s) 0 0 ((inRd th s f).v &&& f.imm)) ∧
  minMaxRun .min .minOp true id ∧ minMaxRun .max .maxOp true not ∧
  minMaxRun .minu .minu false id ∧ minMaxRun .maxu .maxu false not)

/-- R244, R245, R239: NOP, YIELD and FENCE, which change no register, and the moves. -/
def Obligations.MoveResults : Prop :=
  completes (fun th f => .nop th f []) .nop (fun _ => []) (fun _ => []) (fun _ _ _ => True) dstNone flKeep ∧
  completes .yield .yieldOp (fun _ => []) (fun _ => []) (fun _ _ _ => True) dstNone flKeep ∧
  completes .fence .fence (fun _ => []) (fun _ => []) (fun th s _ => effectsDone th s) dstNone flKeep ∧
  completes .movi .movi (fun _ => []) (fun f => [f.rd.val]) (fun _ _ _ => True)
    (fun _ _ f => to1 f.rd (tvInt f.imm)) flKeep ∧
  completes .movih .movih (fun f => [f.rd.val]) (fun f => [f.rd.val]) (fun th s f => allInt th s [f.rd.val])
    (fun th s f => to1 f.rd (tvInt ((f.imm.setWidth 16 ++ (inRd th s f).v.setWidth 16 : BitVec 32)))) flKeep ∧
  completes .clr .clr (fun _ => []) (fun f => [f.rd.val]) (fun _ _ _ => True)
    (fun th s f => to1 f.rd (tagged th s 0 tVOID)) flKeep ∧
  (∀ (th : Thr) (f : Form) (s : State), goesAhead .mov th f s → arrived th s [f.rs.val] → destsFree th s [f.rd.val] →
    (isPlain th s = true → clean th s [f.rs.val]) → (isPlain th s = false → (inRs th s f).tag ≤ 8 ∨ (inRs th s f).tag = tVOID) →
    ∃ s', exec (.mov th f) s = .next s' ∧ commits .mov th f s s' (fun k =>
      if k = f.rd.val then some (tagged th s (inRs th s f).v (inRs th s f).tag)
      else if k = f.rs.val ∧ isPlain th s = false ∧ (inRs th s f).tag = tBUF then some TV.void else none)
      (flags (thrOf th s))) ∧
  (∀ (th : Thr) (f : Form) (s : State), goesAhead .swap th f s → arrived th s [f.rd.val, f.rs.val] →
    (isPlain th s = true → clean th s [f.rd.val, f.rs.val]) →
    (isPlain th s = false → ∀ x ∈ [inRd th s f, inRs th s f], x.tag ≤ 8 ∨ x.tag = tVOID) →
    ∃ s', exec (.swap th f) s = .next s' ∧ commits .swap th f s s' (fun k =>
      if k = f.rs.val then some (tagged th s (inRd th s f).v (inRd th s f).tag)
      else if k = f.rd.val then some (tagged th s (inRs th s f).v (inRs th s f).tag) else none)
      (flags (thrOf th s)))

/-- R246, R248: the operations on one register. R248: the wide products, divisions and remainders, and DIV_ZERO. -/
def Obligations.UnaryMultiplyDivide : Prop :=
  (
  completes .not .notOp (fun f => [f.rs.val]) (fun f => [f.rd.val])
    (fun th s f => isPlain th s = true ∨ (inRs th s f).tag = tINT ∨ (inRs th s f).tag = tBOOL)
    (fun th s f => to1 f.rd (tagged th s
      (if isPlain th s = false ∧ (inRs th s f).tag = tBOOL then 1 - (inRs th s f).v else ~~~(inRs th s f).v) (inRs th s f).tag))
    (fun th s f => flZN (thrOf th s) 0 0
      (if isPlain th s = false ∧ (inRs th s f).tag = tBOOL then 1 - (inRs th s f).v else ~~~(inRs th s f).v)) ∧
  unary .neg .neg (fun a => -a) (flSub (fun _ => false)) ∧
  unary .sextb .sextb (fun a => (a.setWidth 8).signExtend 32) flNone ∧
  unary .sexth .sexth (fun a => (a.setWidth 16).signExtend 32) flNone ∧
  unary .zextb .zextb (fun a => (a.setWidth 8).setWidth 32) flNone ∧
  unary .zexth .zexth (fun a => (a.setWidth 16).setWidth 32) flNone ∧
  unary .bswap .bswap (fun a => ofBits (fun k => a.getLsbD (8 * (3 - k / 8) + k % 8))) flNone ∧
  unary .brev .brev (fun a => ofBits (fun k => a.getLsbD (31 - k))) flNone ∧
  unary .clz .clz (fun a => BitVec.ofNat 32 (firstSet (fun k => a.getLsbD (31 - k)))) flNone ∧
  unary .ctz .ctz (fun a => BitVec.ofNat 32 (firstSet (fun k => a.getLsbD k))) flNone ∧
  unary .popc .popc (fun a => BitVec.ofNat 32 ((List.range 32).countP (fun k => a.getLsbD k))) flNone) ∧
  (
  wide .mulw .mulw (fun a b => BitVec.ofInt 64 (a.toInt * b.toInt)) ∧
  wide .mulwu .mulwu (fun a b => BitVec.ofNat 64 (a.toNat * b.toNat)) ∧
  division .div .divOp (fun a b => BitVec.ofInt 32 (a.toInt.tdiv b.toInt)) (fun a b => a == 0x80000000 && b == 0xFFFFFFFF) ∧
  division .divu .divu (fun a b => BitVec.ofNat 32 (a.toNat / b.toNat)) (fun _ _ => false) ∧
  division .rem .rem (fun a b => BitVec.ofInt 32 (a.toInt.tmod b.toInt)) (fun a b => a == 0x80000000 && b == 0xFFFFFFFF) ∧
  division .remu .remu (fun a b => BitVec.ofNat 32 (a.toNat % b.toNat)) (fun _ _ => false))

/-- R222, R249: core-local loads. R222, R249: core-local stores, with every byte they leave alone. R252, R253: the header window and
the parse result. -/
def Obligations.LoadsAndStores : Prop :=
  (
  loadRun .ld .ld false (fun f => [f.rs.val]) (addrDisp inRs) ∧
  loadRun .ldx .ldx false (fun f => [f.rs.val, f.rt.val]) addrSum ∧
  loadRun .lds .lds true (fun f => [f.rs.val]) (addrDisp inRs) ∧
  loadRun .ldsx .ldsx true (fun f => [f.rs.val, f.rt.val]) addrSum) ∧
  (
  storeRun .st .st (fun f => f.rs.val) (fun f => [f.rd.val]) (addrDisp inRd) ∧
  storeRun .stx .stx (fun f => f.rd.val) (fun f => [f.rs.val, f.rt.val]) addrSum) ∧
  (
  windowRun .hld .hld (fun f => [f.rs.val])
    (fun th s f => isPlain th s = true ∨ (inRs th s f).tag = tHOFS) (addrDisp inRs) ∧
  windowRun .hldx .hldx (fun f => [f.rs.val, f.rt.val])
    (fun th s f => isPlain th s = true ∨ (inRs th s f).tag = tHOFS ∧ (inRt th s f).tag = tINT) addrSum ∧
  headerRun .hofs .hofs 0 9 tHOFS ∧ headerRun .hlen .hlen 12 9 tINT ∧ headerRun .htype .htype 24 8 tINT)

/-- R226, R231, R237, R239, R254, R255: branches, calls and loops. -/
def Obligations.ControlTransfer : Prop :=
  (∀ (th : Thr) (f : Form) (s : State), goesAhead .br th f s →
    ∃ s', exec (.br th f) s = .next s' ∧ branches th s s' to0 (target .br th f s)) ∧
  (∀ (th : Thr) (f : Form) (s : State), goesAhead .bcc th f s → arrived th s [16] →
    let t := thrOf th s
    let cond := [t.n, !t.n, t.v, !t.v, t.n != t.v, t.n == t.v, t.z || t.n != t.v, !t.z && t.n == t.v, t.c || t.z, !t.c && !t.z]
    ∃ s', exec (.bcc th f) s = .next s' ∧
      if (cond[f.rd.val]?).getD false = true then branches th s s' to0 (target .bcc th f s)
      else commits .bcc th f s s' to0 (flags (thrOf th s))) ∧
  (∀ (th : Thr) (f : Form) (s : State), goesAhead .call th f s → destsFree th s [15] →
    ∃ s', exec (.call th f) s = .next s' ∧
      branches th s s' (to1 15 (returnAddr .call th f s)) (target .call th f s)) ∧
  (∀ (th : Thr) (f : Form) (s : State), goesAhead .callr th f s → operands th s [f.rs.val] [15] → codeIn th s (inRs th s f) →
    ∃ s', exec (.callr th f) s = .next s' ∧
      branches th s s' (to1 15 (returnAddr .callr th f s)) (inRs th s f).v.toNat) ∧
  (∀ (th : Thr) (f : Form) (s : State), goesAhead .jmpr th f s → operands th s [f.rs.val] [] → codeIn th s (inRs th s f) →
    ∃ s', exec (.jmpr th f) s = .next s' ∧ branches th s s' to0 (inRs th s f).v.toNat) ∧
  (∀ (th : Thr) (f : Form) (s : State), goesAhead .ret th f s → operands th s [15] [] →
    codeIn th s (mget (thrOf th s).g 15 TV.void) →
    ∃ s', exec (.ret th f) s = .next s' ∧ branches th s s' to0 (gval th s 15).toNat) ∧
  completes .lea .lea (fun _ => []) (fun f => [f.rd.val]) (fun _ _ _ => True)
    (fun th s f => to1 f.rd (tagged th s (BitVec.ofNat 32 (target .lea th f s)) tCODE)) flKeep ∧
  loopRun .loop .loopOp (fun f => [f.rd.val]) (fun th s f => (inRd th s f).v) ∧
  loopRun .loopi .loopi (fun _ => []) (fun _ _ f => BitVec.ofNat 32 (16 * f.rd.val + f.rs.val)) ∧
  (∀ (th : Thr) (f : Form) (s : State), goesAhead .lexit th f s →
    ∃ s', exec (.lexit th f) s = .next s' ∧ onlyThread th s s' ∧
      fallsThrough (nextPc .lexit th f s) { thrOf th s with depth := (thrOf th s).depth - 1 } (thrOf th s') ∧
      (thrOf th s').g = (thrOf th s).g ∧
      flags (thrOf th s') = flags (thrOf th s) ∧ sameHoldings (thrOf th s) (thrOf th s'))

/-- R289, R290: the fused instructions. -/
def Obligations.FusedResults : Prop :=
  crcRun .crc32c .crc32c (crcR 0x82F63B78) ∧ crcRun .crc32 .crc32 (crcR 0xEDB88320) ∧
  crcRun .crc16r .crc16r (fun c => crcR 0xA001 (c % 65536)) ∧
  crcRun .crc16n .crc16n (fun c l => crcN (c % 65536) l.reverse) ∧
  runsTo .tpzInit .tpzInit (fun _ => []) (fun f => [f.rd.val]) always
    (fun th s f => let t := thrOf th s
      setG { t with pos := 0 } f.rd.val (tvInt 0)) noEffect ∧
  toeplitzRun .tpz .tpz 32 (fun th s => instKey s (tinst s (thrNo th))) ∧
  toeplitzRun .tpzH .tpzH 16 (fun th s => instKey s (tinst s (thrNo th))) ∧
  toeplitzRun .tpzSym .tpzSym 32 (fun _ _ => symKey) ∧ toeplitzRun .tpzHSym .tpzHSym 16 (fun _ _ => symKey) ∧
  fused2 .add16 .add16 (fun _ d a => BitVec.ofNat 32 (onesSum (d.toNat % 65536) (a.toNat % 65536))) ∧
  fused2 .add32 .add32 (fun _ d a => BitVec.ofNat 32 (onesSum (onesSum (d.toNat % 65536) (a.toNat / 65536)) (a.toNat % 65536))) ∧
  fused2 .sub16 .sub16 (fun _ d a => BitVec.ofNat 32 (onesSum (d.toNat % 65536) (65535 - a.toNat % 65536))) ∧
  completes .fin .finOp (fun f => [f.rd.val]) (fun f => [f.rd.val]) (fun th s f => allInt th s [f.rd.val])
    (fun th s f => to1 f.rd (tvInt (BitVec.ofNat 32 (65535 - (inRd th s f).v.toNat % 65536))))
    (fun th s f => let t := thrOf th s
      (decide ((inRd th s f).v.toNat % 65536 = 65535), t.n, t.c, t.v)) ∧
  runsTo .bfset .bfset (fun f => [f.rs.val]) (fun _ => []) (fun th s f => allInt th s [f.rs.val] ∧ (inRs th s f).v.toNat < 1024)
    (fun th s f => let t := thrOf th s
      { t with bfp := (inRs th s f).v.toNat % 32, bfw := (inRs th s f).v.toNat / 32 + 1 }) noEffect ∧
  completes .extu .extu (fun f => [f.rs.val]) (fun f => [f.rd.val]) (fun th s f => allInt th s [f.rs.val])
    (fun th s f => to1 f.rd (tvInt (BitVec.ofNat 32 ((inRs th s f).v.toNat / 2 ^ (thrOf th s).bfp % 2 ^ (thrOf th s).bfw)))) flKeep ∧
  completes .exts .exts (fun f => [f.rs.val]) (fun f => [f.rd.val])
    (fun th s f => allInt th s [f.rs.val] ∧ 0 < (thrOf th s).bfw)
    (fun th s f => to1 f.rd (tvInt
      ((BitVec.ofNat (thrOf th s).bfw ((inRs th s f).v.toNat / 2 ^ (thrOf th s).bfp)).signExtend 32))) flKeep ∧
  completes .ins .ins (fun f => [f.rs.val, f.rd.val]) (fun f => [f.rd.val]) (fun th s f => allInt th s [f.rs.val, f.rd.val])
    (fun th s f => let t := thrOf th s
      to1 f.rd (tvInt (ofBits (fun k =>
        if t.bfp ≤ k ∧ k < t.bfp + t.bfw then (inRs th s f).v.getLsbD (k - t.bfp) else (inRd th s f).v.getLsbD k)))) flKeep

/-- R216, R256, R257: tags and special registers. -/
def Obligations.TagsAndSpecialRegisters : Prop :=
  (∀ (th : Thr) (f : Form) (s : State), goesAhead .tagof th f s → arrived th s [f.rs.val] → destsFree th s [f.rd.val] →
    (isPlain th s = true → clean th s [f.rs.val]) → (isPlain th s = false → (inRs th s f).tag ≤ 8 ∨ (inRs th s f).tag = 15) →
    ∃ s', exec (.tagof th f) s = .next s' ∧ commits .tagof th f s s'
      (to1 f.rd (tvInt (if isPlain th s then 0 else BitVec.ofNat 32 (inRs th s f).tag))) (flags (thrOf th s))) ∧
  completes .tagset .tagset (fun f => [f.rd.val]) (fun _ => [])
    (fun th s f => isPlain th s = true ∨ (inRd th s f).tag ∈ [0, 1, 3, 5] ∧ f.imm.toNat ∈ [0, 1, 3, 5])
    (fun th s f k => if isPlain th s = false ∧ k = f.rd.val then
        some { v := if f.imm = 1 ∧ (inRd th s f).v ≠ 0 then 1 else (inRd th s f).v, tag := f.imm.toNat } else none) flKeep ∧
  completes .mfs .mfs (fun f => if f.imm = 0 then [16] else []) (fun f => [f.rd.val]) (fun _ _ f => f.imm ≠ 4)
    (fun th s f => to1 f.rd (tvInt (specialWord th s f.imm.toNat))) flKeep ∧
  runsTo .mfs .mfs (fun _ => []) (fun f => [f.rd.val]) (fun _ _ f => f.imm = 4)
    (fun th s f => let t := thrOf th s
      let x := tagged th s t.pkt.v t.pkt.tag
      setG { t with pkt := if isPlain th s then t.pkt else TV.void } f.rd.val x) noEffect ∧
  completes .mts .mts (fun f => [f.rs.val]) (fun _ => []) (fun th s f => f.imm = 0 ∧ allInt th s [f.rs.val]) dstNone
    (fun th s f => let v := (inRs th s f).v
      (v.getLsbD 0, v.getLsbD 1, v.getLsbD 2, v.getLsbD 3)) ∧
  runsTo .mts .mts (fun f => [f.rs.val]) (fun _ => [])
    (fun th s f => f.imm = 4 ∧ (isPlain th s = true ∨ (inRs th s f).tag = tBUF ∧ (thrOf th s).pkt.tag = tVOID) ∧
      ∃ c, thrCell s (thrNo th) = some c ∧ (inRs th s f).v = pktHandle (tinst s (thrNo th)) c)
    (fun th s f => let t := if isPlain th s then thrOf th s else withG th s f.rs TV.void
      { t with pkt := { v := (inRs th s f).v, tag := tBUF } }) noEffect ∧
  runsTo .mts .mts (fun f => [f.rs.val]) (fun _ => []) (fun th s f => 16 ≤ f.imm.toNat ∧ f.imm.toNat ≤ 19 ∧ allInt th s [f.rs.val])
    (fun th s f => let t := thrOf th s
      let l := f.imm.toNat - 16
      if l < t.depth then setLv t l { ls := (lvOf t l).ls, le := (lvOf t l).le, lc := (inRs th s f).v } else t) noEffect

/-- R258, R259, R260, R264: what a program reads of the device: times, random words, handles, capacities, queue lengths. -/
def Obligations.DeviceReads : Prop :=
  completes .tblh .tblh (fun _ => []) (fun f => [f.rd.val])
    (fun th s f => ∃ r, tgeoRec s f.imm.toNat = some r ∧ r.inst = tinst s (thrNo th))
    (fun th s f => to1 f.rd (tagged th s (tblHandle f.imm.toNat) tTBL)) flKeep ∧
  (∀ (th : Thr) (f : Form) (s : State), goesAhead .rdtime th f s → operands th s [] [f.rd.val] → unrecorded s →
    ∃ s' lag, lag ≤ 4 ∧ exec (.rdtime th f) s = .next s' ∧ outside th s s' ∧
      let t := thrOf th s
      let ptp := if s.clk.jumpAt + lag ≤ s.clk.fab then s.clk.sec * 10 ^ 9 + s.clk.ns - lag else s.clk.sec * 10 ^ 9 + s.clk.ns
      let x := if f.rs.val = 0 then setG t f.rd.val (tagged th s (BitVec.ofNat 32 (s.clk.fab - lag)) tTIME)
        else if f.rs.val = 1 then setG { t with secLatch := BitVec.ofNat 32 (ptp / 10 ^ 9) } f.rd.val (tagged th s (BitVec.ofNat 32 (ptp % 10 ^ 9)) tTIME)
        else setG t f.rd.val (tvInt t.secLatch)
      fellFrom (nextPc .rdtime th f s) t x (thrOf th s')) ∧
  (∀ (th : Thr) (f : Form) (s : State), goesAhead .rand th f s → operands th s [] [f.rd.val] → unrecorded s →
    ∃ s' w, exec (.rand th f) s = .next s' ∧ drew th s s' ∧
      fellFrom (nextPc .rand th f s) (thrOf th s) (withG th s f.rd (tvInt w)) (thrOf th s')) ∧
  completes .posycap .posycap (fun _ => []) (fun f => [f.rd.val])
    (fun th s f => ∃ r, posyRec s f.imm.toNat = some r ∧ r.inst = tinst s (thrNo th))
    (fun _ s f => to1 f.rd (tvInt (BitVec.ofNat 32 (capOf s f.imm.toNat)))) flKeep ∧
  completes .evqlen .evqlen (fun _ => []) (fun f => [f.rd.val]) always
    (fun th s f => to1 f.rd (tvInt (BitVec.ofNat 32 (thrOf th s).evq.length))) flKeep ∧
  completes .thrst .thrst (fun f => [f.rs.val]) (fun f => [f.rd.val])
    (fun th s f => allInt th s [f.rs.val] ∧ namesThr th s 0 (inRs th s f).v)
    (fun th s f => to1 f.rd (tvInt (thrWord s (rsThr th s f)))) flKeep ∧
  completes .lkstat .lkstat (fun f => [f.rs.val]) (fun f => [f.rd.val])
    (fun th s f => allInt th s [f.rs.val] ∧ anyLock (inRs th s f).v.toNat = true ∧
      lockInst s (inRs th s f).v.toNat = some (tinst s (thrNo th)))
    (fun th s f => to1 f.rd (tvInt (lockWord s (inRs th s f).v.toNat))) flKeep

/-- R197, R204, R261 to R263: a supervisor prepares, releases and reads threads that are BOUND or HELD, and Z tells it when a thread is
neither. -/
def Obligations.SupervisorOperations : Prop :=
  runsTo .sett .sett (fun f => [f.rs.val, f.rd.val]) (fun _ => [])
    (fun th s f => f.rt.val = 0 ∧ allInt th s [f.rs.val, f.rd.val] ∧ supervisesRs 15 th s f ∧ rsStill th s f ∧
      tagR (thr s (rsThr th s f)) ((inRs th s f).v.toNat / 65536) ≠ tBUF)
    (fun th s _ => withZ th s true)
    (fun th s f => thrMod (rsThr th s f) (fun t => setG t ((inRs th s f).v.toNat / 65536) (tvInt (inRd th s f).v)) s) ∧
  runsTo .sett .sett (fun f => [f.rs.val, f.rd.val]) (fun _ => [])
    (fun th s f => f.rt.val = 1 ∧ allInt th s [f.rs.val, f.rd.val] ∧ supervisesRs 0 th s f ∧ rsStill th s f ∧
      (inRd th s f).v.toNat < 524288)
    (fun th s _ => withZ th s true)
    (fun th s f => thrMod (rsThr th s f) (fun t => { t with pc := (inRd th s f).v.toNat }) s) ∧
  runsTo .sett .sett (fun f => [f.rs.val, f.rd.val]) (fun _ => [])
    (fun th s f => f.rt.val = 2 ∧ allInt th s [f.rs.val, f.rd.val] ∧ supervisesRs 0 th s f ∧ rsStill th s f ∧
      (inRd th s f).v.toNat ≤ 3)
    (fun th s _ => withZ th s true)
    (fun th s f => thrMod (rsThr th s f) (fun t => { t with base := (inRd th s f).v.toNat }) s) ∧
  runsTo .relt .relt (fun f => [f.rs.val]) (fun _ => [])
    (fun th s f => allInt th s [f.rs.val] ∧ supervisesRs 0 th s f ∧ (thr s (rsThr th s f)).st = .bound)
    (fun th s _ => withZ th s true)
    (fun th s f => thrMod (rsThr th s f) (fun t => { t with st := .ready, runAt := s.clk.fab }) s) ∧
  runsTo .relt .relt (fun f => [f.rs.val]) (fun _ => [])
    (fun th s f => allInt th s [f.rs.val] ∧ supervisesRs 0 th s f ∧ (thr s (rsThr th s f)).st ≠ .bound)
    (fun th s _ => withZ th s false) noEffect ∧
  runsTo .fdispResume .fdisp (fun f => [f.rs.val]) (fun _ => [])
    (fun th s f => f.imm = 0 ∧ allInt th s [f.rs.val] ∧ supervisesRs 0 th s f ∧ (thr s (rsThr th s f)).st = .held ∧
      (thr s (rsThr th s f)).flt.isSome = true)
    (fun th s _ => withZ th s true)
    (fun th s f => thrMod (rsThr th s f) (fun t =>
      { t with st := .ready, flt := none, runAt := t.runAt + (s.clk.fab - (t.flt.map (·.since)).getD 0) }) s) ∧
  runsTo .fdispSkip .fdisp (fun f => [f.rs.val]) (fun _ => [])
    (fun th s f => f.imm = 1 ∧ allInt th s [f.rs.val] ∧ supervisesRs 0 th s f ∧ (thr s (rsThr th s f)).st = .held ∧
      (thr s (rsThr th s f)).flt.isSome = true)
    (fun th s _ => withZ th s true)
    (fun th s f => thrMod (rsThr th s f) (fun t => advance ((t.flt.map (·.skipTo)).getD 0)
      { t with st := .ready, flt := none, runAt := t.runAt + (s.clk.fab - (t.flt.map (·.since)).getD 0) }) s) ∧
  (∀ (th : Thr) (f : Form) (s : State), goesAhead .fdisp th f s → operands th s [f.rs.val] [] → f.imm = 2 →
    allInt th s [f.rs.val] → supervisesRs 0 th s f →
    let o := rsThr th s f
    (thr s o).st = .held → (thr s o).flt.isSome = true → isSup s o = false → (thr s o).ctx = none → (thr s o).entry = none →
    (thr s o).cps = [] → locksHeld s o = [] →
    ∃ s', exec (.fdispDrop th f) s = .next s' ∧ (thrOf th s').g = (thrOf th s).g ∧ (thrOf th s').z = true ∧
      (thr s' o).st = .ready ∧ (thr s' o).g = [] ∧ (thr s' o).depth = 0 ∧ (thr s' o).flt = none ∧ (thr s' o).secLatch = 0) ∧
  runsTo .gett .gett (fun f => [f.rs.val]) (fun f => [f.rd.val])
    (fun th s f => allInt th s [f.rs.val] ∧ supervisesRs 0 th s f ∧ rsStill th s f)
    (fun th s f => setG (withZ th s true) f.rd.val
      (gettVal (isPlain th s) (thr s (rsThr th s f)) (plainOf s (rsThr th s f)) f.imm.toNat)) noEffect ∧
  runsTo .gett .gett (fun f => [f.rs.val]) (fun f => [f.rd.val])
    (fun th s f => allInt th s [f.rs.val] ∧ supervisesRs 0 th s f ∧ ¬rsStill th s f)
    (fun th s f => setG (withZ th s false) f.rd.val (tvInt 0)) noEffect

/-- R269, R271: a packet's disposition. -/
def Obligations.PacketDispositions : Prop :=
  disposes .send .send (fun f => [f.rs.val])
    (fun th s f => let i := tinst s (thrNo th)
      (inRs th s f).v.toNat < instF s i (·.qCount) ∧ (qRec s (instF s i (·.qBase) + (inRs th s f).v.toNat)).isSome = true)
    (fun th s f => .send (instF s (tinst s (thrNo th)) (·.qBase) + (inRs th s f).v.toNat)) ∧
  disposes .sendi .sendi (fun _ => [])
    (fun th s f => let i := tinst s (thrNo th)
      f.imm.toNat < instF s i (·.qCount) ∧ (qRec s (instF s i (·.qBase) + f.imm.toNat)).isSome = true)
    (fun th s f => .send (instF s (tinst s (thrNo th)) (·.qBase) + f.imm.toNat)) ∧
  disposes .drop .dropOp (fun _ => []) always (fun _ _ _ => .drop 0x42) ∧
  disposes .tohost .tohost (fun _ => []) (fun th s _ => (hostPort s (tinst s (thrNo th))).isSome = true)
    (fun _ _ f => .host (f.imm.toNat % 256)) ∧
  disposes .recirc .recirc (fun _ => []) always (fun _ _ _ => .recirc)

/-- R253, R270, R272, R273, R178: what a program does with the packet it holds before it disposes of it. -/
def Obligations.PacketOperations : Prop :=
  completes .pktlen .pktlen (fun _ => []) (fun f => [f.rd.val])
    (fun th s _ => (thrOf th s).pkt.tag ≠ tVOID ∧ cmPoison s th.core.val (0x1F800 + 0x100 * th.thread.val + 0x24) = false)
    (fun th s f => to1 f.rd (tvInt (BitVec.ofNat 32 (parseWord th s 1 / 2 ^ 16 % 2 ^ 14)))) flKeep ∧
  (∀ (th : Thr) (f : Form) (s : State) (c : Nat), goesAhead .edadd th f s → operands th s [f.rs.val, f.rt.val] [f.rd.val] →
    allInt th s [f.rs.val, f.rt.val] → thrCell s (thrNo th) = some c →
    let t := thrOf th s
    let o := editOp (inRs th s f).v (inRt th s f).v
    editOk s (tinst s (thrNo th)) o = true →
    ∃ s', exec (.edadd th f) s = .next s' ∧ outside th s s' ∧
      fellFrom (nextPc .edadd th f s) t
        (if editFits s (tinst s (thrNo th)) (t.edit ++ [o]) then
          setG { t with edit := t.edit ++ [o], z := true } f.rd.val (tvInt (BitVec.ofNat 32 (t.edit.length + 1)))
        else setG { t with z := false } f.rd.val (tvInt (BitVec.ofNat 32 t.edit.length))) (thrOf th s')) ∧
  runsTo .edrd .edrd (fun _ => []) (fun f => [f.rd.val]) (fun th s _ => (thrCell s (thrNo th)).isSome = true)
    (fun th s f => match (thrOf th s).edit[f.imm.toNat / 2]? with
      | some o => setG (withZ th s false) f.rd.val (tvInt (if f.imm.toNat % 2 = 0
          then BitVec.ofNat 32 (o.op % 256 + 256 * (o.a % 256) + 65536 * (o.b % 65536)) else BitVec.ofNat 32 o.imm))
      | none => setG (withZ th s true) f.rd.val (tvInt 0)) noEffect ∧
  (∀ (th : Thr) (f : Form) (s : State) (c : Nat) (p : Pkt), goesAhead .mirror th f s →
    operands th s [f.rd.val, f.rs.val] [] → allInt th s [f.rd.val, f.rs.val] → (thrOf th s).pkt.tag ≠ tVOID →
    thrCell s (thrNo th) = some c → pktOf s c = some p →
    (let n := (inRd th s f).v.toNat
     n = 120 ∨ hostPort s (tinst s (thrNo th)) = some n ∨ n < 64 ∧ portInst s n = some (tinst s (thrNo th))) →
    (inRs th s f).v.toNat ≤ 144 →
    ∃ s', exec (.mirror th f) s = .next s' ∧ (thrOf th s').g = (thrOf th s).g ∧
      (2 ≤ p.mirrors → (thrOf th s').z = false ∧ outside th s s') ∧
      ((thrOf th s').z = true → (pktOf s' c).map (·.mirrors) = some (p.mirrors + 1)) ∧
      (∀ j, j ≠ c → pktOf s j ≠ none → pktOf s' j = pktOf s j) ∧
      ((thrOf th s').z = false → ∀ j, pktOf s' j = pktOf s j)) ∧
  (∀ (th : Thr) (f : Form) (s : State) (x : Nat), goesAhead .ordx th f s → (thrOf th s).ctx = some x →
    ∃ s', exec (.ordx th f) s = .next s' ∧ (ctxOf s' x).st = .unord ∧ (∀ y, y ≠ x → ctxOf s' y = ctxOf s y) ∧
      (thrOf th s').g = (thrOf th s).g ∧ flags (thrOf th s') = flags (thrOf th s) ∧ s'.cores.mem = s.cores.mem) ∧
  runsTo .ordx .ordx (fun _ => []) (fun _ => []) (fun th s _ => (thrOf th s).ctx = none) (fun th s _ => thrOf th s) noEffect

/-- R274 to R277, R342 to R345: buffers of pools: ALLOC takes the newest entry of its pipe's cache, FREE passes the handle on,
and BLD and BST read and write a buffer's bytes in network order. -/
def Obligations.BufferOperations : Prop :=
  (∀ (th : Thr) (f : Form) (s : State) (j : Nat) (r : List Nat), goesAhead .alloc th f s → operands th s [] [f.rd.val] →
    let k := f.imm.toNat
    let q := ownCluster th s % 4
    ownsPool s (tinst s (thrNo th)) k = true → poolValid s k = true → cacheOf (poolOf s k) q = j :: r →
    ∃ s', exec (.alloc th f) s = .next s' ∧
      fellFrom (nextPc .alloc th f s) (thrOf th s)
        (setG (withZ th s true) f.rd.val (tagged th s (bufHandle (tinst s (thrNo th)) k j) tBUF)) (thrOf th s') ∧
      outside th (cnt (bpmCnt k 0) (setPool k (setCache (poolOf s k) q r) s)) s') ∧
  (∀ (th : Thr) (f : Form) (s : State) (k j : Nat), goesAhead .freeOp th f s → arrived th s [f.rs.val] → clean th s [f.rs.val] →
    (isPlain th s = true ∨ (inRs th s f).tag = tBUF) → areaBuf th s (inRs th s f).v k j →
    ∃ s', exec (.free th f) s = .next s' ∧
      fellFrom (nextPc .freeOp th f s) (thrOf th s) (if isPlain th s then thrOf th s else withG th s f.rs TV.void) (thrOf th s') ∧
      (let t := cnt (bpmCnt k 3) s
       outside th { t with bpm := { t.bpm with frees := t.bpm.frees ++ [(k, ownCluster th s % 4, j)] } } s')) ∧
  (∀ (th : Thr) (f : Form) (s : State) (k j : Nat), goesAhead .bld th f s → operands th s [f.rs.val, f.rt.val] [f.rd.val] →
    (isPlain th s = true ∨ (inRs th s f).tag = tBUF ∧ (inRt th s f).tag = tINT) → areaBuf th s (inRs th s f).v k j →
    f.err.val ≠ 2 → (inRt th s f).v.toNat + sizeBytes f ≤ poolSize s k →
    ∃ s', exec (.bld th f) s = .next s' ∧ commits .bld th f s s'
      (to1 f.rd (tvInt (BitVec.ofNat 32 (beVal ((List.range (sizeBytes f)).map (fun x =>
        memRd s.bpm.area 0 (areaBase s k j + (inRt th s f).v.toNat + x))))))) (flags (thrOf th s))) ∧
  (∀ (th : Thr) (f : Form) (s : State) (k j : Nat), goesAhead .bst th f s → operands th s [f.rs.val, f.rt.val, f.rd.val] [] →
    (isPlain th s = true ∨ (inRs th s f).tag = tBUF ∧ (inRt th s f).tag = tINT ∧ (inRd th s f).tag = tINT) →
    areaBuf th s (inRs th s f).v k j → (inRt th s f).v.toNat + sizeBytes f ≤ poolSize s k →
    let a := areaBase s k j + (inRt th s f).v.toNat
    let n := sizeBytes f
    ∃ s', exec (.bst th f) s = .next s' ∧ through .bst th f s s' to0 (flags (thrOf th s)) ∧
      (∀ x, x < n → memRd s'.bpm.area 0 (a + x) = BitVec.ofNat 8 ((inRd th s f).v.toNat / 256 ^ (n - 1 - x))) ∧
      (∀ x, (x < a ∨ a + n ≤ x) → memRd s'.bpm.area 0 x = memRd s.bpm.area 0 x) ∧
      outside th { s with bpm := { s.bpm with area := s'.bpm.area } } s')

/-- R163, R166, R266 to R268, R278, R279: taking work, and making items and messages. -/
def Obligations.WorkItems : Prop :=
  waitsAs .getw .getw (fun _ => []) (fun _ => [14])
    (fun th s _ => isSup s (thrNo th) = false ∧ (thrOf th s).ctx = none ∧ (thrOf th s).entry = none ∧ (thrOf th s).edit = [] ∧
      (thrOf th s).pkt = TV.void ∧ (isPlain th s = true ∨ blockBuf s (thrNo th) = false))
    (fun th s f => let t := thrOf th s
      { t with st := .getw, wnext := nextPc .getw th f s, depth := 0, pos := 0, bfp := 0, bfw := 32, gseq := s.cores.seq })
    (fun _ s _ => { s with cores := { s.cores with seq := s.cores.seq + 1 } }) ∧
  (∀ (th : Thr) (f : Form) (s : State) (e : Ev), goesAhead .getw th f s → operands th s [] [14] → isSup s (thrNo th) = true →
    (isPlain th s = true ∨ blockBuf s (thrNo th) = false) → (thrOf th s).evq = [e] → (thrOf th s).fq = [] →
    let b := 0x1F800 + 0x100 * th.thread.val
    ∃ s', exec (.getw th f) s = .next s' ∧ (thrOf th s').st = .ready ∧ (thrOf th s').evq = [] ∧ (thrOf th s').depth = 0 ∧
      (thrOf th s').pc = nextPc .getw th f s ∧
      (∀ r, mget (thrOf th s').g r TV.void = (to1 14 (tvInt (BitVec.ofNat 32 b)) r).getD (mget (thrOf th s).g r TV.void)) ∧
      cmNum s' th.core.val b 4 = e.code % 256 * 2 ^ 24 + e.posy % 256 * 2 ^ 16 + e.core % 256 * 2 ^ 8 + e.thread % 8 * 2 ^ 5 +
        (thrOf th s).ovf.toNat * 2 ^ 4 ∧
      cmNum s' th.core.val (b + 4) 4 = e.pc % 2 ^ 32 ∧ cmNum s' th.core.val (b + 8) 4 = e.info % 2 ^ 32 ∧
      cmNum s' th.core.val (b + 12) 4 = e.info2 % 2 ^ 32 ∧ cmNum s' th.core.val (b + 16) 4 = 0xFFFFFFFF ∧
      cmFrame s s' th.core.val b 20) ∧
  (∀ (th : Thr) (f : Form) (s : State), goesAhead .mkitem th f s → operands th s [f.rs.val] [f.rd.val] → allInt th s [f.rs.val] →
    blockOk th s f 4 → unrecorded s → (∃ e, e < 8192 ∧ itemOf s (8192 + e) = none) →
    let ws := blockWords th s (inRs th s f).v.toNat 4
    let w (k : Nat) : Nat := ((ws[k]?).getD 0).toNat
    let i := tinst s (thrNo th)
    itemJudge i 1 (if (thrCell s (thrNo th)).isSome then (thrOf th s).ctx else none) ws s = 0 → w 0 / 2 ^ 25 % 4 = 0 →
    ∃ s' e it, exec (.mkitem th f) s = .next s' ∧ 8192 ≤ e ∧ e < 16384 ∧ itemOf s e = none ∧ itemOf s' e = some it ∧
      it.kind = 1 ∧ it.prio = w 0 / 2 ^ 27 % 8 ∧ it.inst = i ∧ it.posy = w 1 / 2 ^ 24 ∧ it.arg.toNat = w 3 ∧
      it.cell = none ∧ it.ctx = none ∧
      fellFrom (nextPc .mkitem th f s) (thrOf th s)
        (setG (withZ th s true) f.rd.val (tvInt (BitVec.ofNat 32 (mget s.dsp.gens e 0 * 65536 + e)))) (thrOf th s') ∧
      ∀ y, y ≠ e → itemOf s' y = itemOf s y) ∧
  (∀ (th : Thr) (f : Form) (s : State), goesAhead .mkitem th f s → operands th s [f.rs.val] [f.rd.val] → allInt th s [f.rs.val] →
    blockOk th s f 4 →
    let st := itemJudge (tinst s (thrNo th)) 1 (if (thrCell s (thrNo th)).isSome then (thrOf th s).ctx else none)
      (blockWords th s (inRs th s f).v.toNat 4) s
    st ≠ 0 → ∃ s', exec (.mkitem th f) s = .next s' ∧
      fellFrom (nextPc .mkitem th f s) (thrOf th s) (setG (withZ th s false) f.rd.val (tvInt (BitVec.ofNat 32 st))) (thrOf th s') ∧
      outside th (cnt (dspCnt (tinst s (thrNo th)) 7) s) s') ∧
  (∀ (th : Thr) (f : Form) (s : State) (it : Item), goesAhead .sendmsg th f s → operands th s [f.rs.val] [f.rd.val] →
    allInt th s [f.rs.val] → blockOk th s f 6 → unrecorded s →
    let ws := blockWords th s (inRs th s f).v.toNat 6
    let w (k : Nat) : Nat := ((ws[k]?).getD 0).toNat
    let e := w 0 % 65536
    e < 16384 → mget s.dsp.gens e 0 = w 0 / 65536 → itemOf s e = some it → it.st = .waiting → it.inst = tinst s (thrNo th) →
    w 1 < 4 → it.slots[w 1]? = some 4 → w 1 ∉ it.got →
    ∃ s' it', exec (.sendmsg th f) s = .next s' ∧ itemOf s' e = some it' ∧ w 1 ∈ it'.got ∧ mfind it'.msg (w 1) = some (ws.drop 2) ∧
      fellFrom (nextPc .sendmsg th f s) (thrOf th s) (setG (withZ th s true) f.rd.val (tvInt 0)) (thrOf th s')) ∧
  (∀ (th : Thr) (f : Form) (s : State), goesAhead .sendmsg th f s → operands th s [f.rs.val] [f.rd.val] → allInt th s [f.rs.val] →
    blockOk th s f 6 →
    let w := cmNum s th.core.val (inRs th s f).v.toNat 4
    mget s.dsp.gens (w % 16384) 0 ≠ w / 65536 →
    ∃ s', exec (.sendmsg th f) s = .next s' ∧
      fellFrom (nextPc .sendmsg th f s) (thrOf th s) (setG (withZ th s false) f.rd.val (tvInt 1)) (thrOf th s') ∧
      outside th (cnt (dspCnt (tinst s (thrNo th)) 2) s) s')

/-- R280, R281, R321 to R325: locks. R282, R329, R330: an atomic operation commits at issue, and its registers are marked until the
memory controller has performed it. -/
def Obligations.LocksAndAtomics : Prop :=
  (
  lockRun .lock .lock (fun f => [f.rs.val]) (fun th s f => (inRs th s f).v.toNat) isGlobal ∧
  lockRun .locki .locki (fun _ => []) (fun _ _ f => f.imm.toNat) isGlobal ∧
  lockRun .flock .flock (fun _ => []) fastNum isFast ∧
  unlockRun .unlock .unlock (fun f => [f.rs.val]) (fun th s f => (inRs th s f).v.toNat) isGlobal ∧
  unlockRun .funlock .funlock (fun _ => []) fastNum isFast ∧
  (∀ (th : Thr) (f : Form) (s : State), goesAhead .trylock th f s → operands th s [f.rs.val] [] → allInt th s [f.rs.val] →
    unrecorded s →
    let n := (inRs th s f).v.toNat
    let l := lockOf s n
    let t := thrOf th s
    n < 65536 → lockInst s n = some (tinst s (thrNo th)) → l.holder ≠ some (thrNo th) →
    (l.holder = none → lockWaiters s n = [] → ∃ s', exec (.trylock th f) s = .next s' ∧
      fellFrom (nextPc .trylock th f s) t { t with z := true, v := decide (l.status ≠ 0) } (thrOf th s') ∧
      outside th (setLock n { holder := some (thrNo th), status := l.status } { s with regs := s'.regs }) s') ∧
    ((l.holder ≠ none ∨ lockWaiters s n ≠ []) → ∃ s', exec (.trylock th f) s = .next s' ∧
      fellFrom (nextPc .trylock th f s) t { t with z := false, v := false } (thrOf th s') ∧ outside th s s')) ∧
  (∀ (th : Thr) (f : Form) (s : State), goesAhead .frcrel th f s → operands th s [f.rs.val] [] → allInt th s [f.rs.val] →
    let n := (inRs th s f).v.toNat
    anyLock n = true → lockInst s n = some (tinst s (thrNo th)) → lockWaiters s n = [] →
    (∀ w, s.lck.stwWait = some w → w.1 ≠ n) →
    ((lockOf s n).holder = none → ∃ s', exec (.frcrel th f) s = .next s' ∧
      fellFrom (nextPc .frcrel th f s) (thrOf th s) (withZ th s false) (thrOf th s') ∧ outside th s s') ∧
    (∀ h, (lockOf s n).holder = some h → h ≠ thrNo th → h ≠ stwId → (thr s h).st = .ready → (thr s h).wait = .none →
      (thr s h).pend.length < 8 → ∃ s', exec (.frcrel th f) s = .next s' ∧
      fellFrom (nextPc .frcrel th f s) (thrOf th s) (withZ th s true) (thrOf th s') ∧
      outside th (thrMod h (fun t => { t with pend := t.pend ++
        [{ code := 0x62, posy := 0xFF, core := h / 8, thread := h % 8, pc := 0, info := n, info2 := 0 }] })
        (setLock n { holder := none, status := 2 } s)) s'))) ∧
  (
  atomRun .afadd .afadd 0 (fun f => [f.rs.val, f.rt.val]) (fun f => [f.rd.val]) ∧
  atomRun .afand .afand 1 (fun f => [f.rs.val, f.rt.val]) (fun f => [f.rd.val]) ∧
  atomRun .afor .afor 2 (fun f => [f.rs.val, f.rt.val]) (fun f => [f.rd.val]) ∧
  atomRun .aswap .aswap 3 (fun f => [f.rs.val, f.rt.val]) (fun f => [f.rd.val]) ∧
  atomRun .acas .acas 4 (fun f => [f.rs.val, f.rt.val, f.rd.val]) (fun f => [f.rd.val, 16]))

/-- R283, R284, R288: events between threads, assertions, journal marks and breakpoints. -/
def Obligations.ThreadEvents : Prop :=
  (∀ (th : Thr) (f : Form) (s : State) (e : Ev) (r : List Ev), goesAhead .evwait th f s → operands th s [f.rs.val] [f.rd.val] →
    allInt th s [f.rs.val] → unrecorded s →
    let n := (inRs th s f).v.toNat
    n ≤ 255 → (thrOf th s).pend = e :: r → (e.code = 0x62 ∨ e.code = 0x6A ∧ e.info % 256 = n) →
    ∃ s', exec (.evwait th f) s = .next s' ∧ outside th s s' ∧
      (let t := thrOf th s
       fellFrom (nextPc .evwait th f s) t
        (setG { t with pend := r, z := true, v := decide (e.code = 0x62) } f.rd.val (tvInt (BitVec.ofNat 32 e.info))) (thrOf th s'))) ∧
  waitsAs .evwait .evwait (fun f => [f.rs.val]) (fun f => [f.rd.val])
    (fun th s f => allInt th s [f.rs.val] ∧ unrecorded s ∧ (inRs th s f).v.toNat ≤ 255 ∧
      ∀ e ∈ (thrOf th s).pend, e.code ≠ 0x62 ∧ (e.code ≠ 0x6A ∨ e.info % 256 ≠ (inRs th s f).v.toNat))
    (fun th s f => let t := thrOf th s
      { t with st := .blocked, wait := .event (inRs th s f).v.toNat, wnext := nextPc .evwait th f s, wrd := f.rd.val }) noEffect ∧
  runsTo .evsig .evsig (fun f => [f.rd.val, f.rs.val]) (fun _ => [])
    (fun th s f => let o := namedThr (inRd th s f).v
      allInt th s [f.rd.val, f.rs.val] ∧ namesThr th s 0 (inRd th s f).v ∧ o ≠ thrNo th ∧ (thr s o).st = .ready ∧
      (thr s o).wait = .none ∧ (thr s o).pend.length < 8)
    (fun th s _ => withZ th s true)
    (fun th s f => thrMod (namedThr (inRd th s f).v) (fun t => { t with pend := t.pend ++
      [{ code := 0x6A, posy := 0xFF, core := th.core.val, thread := th.thread.val, pc := 0, info := (inRs th s f).v.toNat,
         info2 := 0 }] }) s) ∧
  runsTo .evsig .evsig (fun f => [f.rd.val, f.rs.val]) (fun _ => [])
    (fun th s f => let o := namedThr (inRd th s f).v
      allInt th s [f.rd.val, f.rs.val] ∧ namesThr th s 0 (inRd th s f).v ∧ ((thr s o).st = .off ∨ (thr s o).st = .bound))
    (fun th s _ => withZ th s false) noEffect ∧
  completes .assert .assertOp (fun f => [f.rs.val]) (fun _ => [])
    (fun th s f => (isPlain th s = true ∨ (inRs th s f).tag = tINT ∨ (inRs th s f).tag = tBOOL) ∧ (inRs th s f).v ≠ 0) dstNone flKeep ∧
  runsTo .jmark .jmark (fun f => [f.rs.val]) (fun _ => []) (fun th s f => allInt th s [f.rs.val] ∧ unrecorded s)
    (fun th s _ => withZ th s false) noEffect ∧
  runsTo .trig .trig (fun f => [f.rs.val]) (fun _ => []) (fun th s f => allInt th s [f.rs.val] ∧ s.jnl.st ≠ .run)
    (fun th s _ => withZ th s false) (fun _ s _ => cnt (jnlCnt 6) s) ∧
  (∀ (th : Thr) (f : Form) (s : State), goesAhead .trig th f s → operands th s [f.rs.val] [] → allInt th s [f.rs.val] →
    s.jnl.st = .run → rb s 0x408010 2 = true →
    ∃ s', exec (.trig th f) s = .next s' ∧ s'.jnl.st = .post ∧
      fellFrom (nextPc .trig th f s) (thrOf th s) (withZ th s true) (thrOf th s')) ∧
  (∀ (th : Thr) (f : Form) (s : State), goesAhead .breakOp th f s → dbgHeld s (tinst s (thrNo th)) = true →
    rb s 0x280800C 0 = false → rb s 0x280800C 1 = false →
    ∃ s', exec (.breakOp th f) s = .next s' ∧ (thrOf th s').st = .stopped ∧ (thrOf th s').back = .ready ∧
      (thrOf th s').pc = (thrOf th s).pc ∧ (thrOf th s').g = (thrOf th s).g ∧ flags (thrOf th s') = flags (thrOf th s) ∧ outside th s s')

/-- R285, R286, R294, R301, R302: contexts of the shared units. -/
def Obligations.CoprocessorContexts : Prop :=
  (∀ (th : Thr) (f : Form) (s : State) (c : Nat), goesAhead .clk th f s → operands th s [] [f.rd.val] →
    ownCtx th s f.imm.toNat = some c →
    ∃ s', exec (.clk th f) s = .next s' ∧ outside th s s' ∧
      (let t := thrOf th s
       fellFrom (nextPc .clk th f s) t (setG { t with z := true, v := false } f.rd.val (tvInt (BitVec.ofNat 32 c))) (thrOf th s'))) ∧
  (∀ (th : Thr) (f : Form) (s : State) (c : Nat), goesAhead .clk th f s → operands th s [] [f.rd.val] →
    let u := f.imm.toNat
    let k := ownCluster th s
    let t := thrOf th s
    ownCtx th s u = none → t.reacq = [] → clkWaiters s k u = [] → (List.range 8).find? (cpxFree s k u) = some c →
    ∃ s', exec (.clk th f) s = .next s' ∧
      cpxOf s' k u c = { CpxCtx.init with holder := some (thrNo th), clkPc := nextPc .clk th f s } ∧ (thrOf th s').cps = (u, c) :: t.cps ∧
      (thrOf th s').st = .ready ∧ flags (thrOf th s') = (true, t.n, t.c, (cpxOf s k u c).dbg) ∧
      fallsThrough (nextPc .clk th f s) t (thrOf th s') ∧
      (∀ r, mget (thrOf th s').g r TV.void = (to1 f.rd (tvInt (BitVec.ofNat 32 c)) r).getD (mget t.g r TV.void))) ∧
  runsTo .cul .cul (fun _ => []) (fun _ => []) (fun th s f => ownCtx th s f.imm.toNat = none)
    (fun th s _ => withZ th s false) noEffect ∧
  (∀ (th : Thr) (f : Form) (s : State) (c : Nat), goesAhead .cul th f s →
    let u := f.imm.toNat
    let k := ownCluster th s
    let y := cpxOf s k u c
    let t := thrOf th s
    ownCtx th s u = some c → y.holder = some (thrNo th) → y.cmd = none → (isPlain th s = true ∨ cpxBufs y = []) → clkWaiters s k u = [] →
    ∃ s', exec (.cul th f) s = .next s' ∧ outside th (setCpx k u c CpxCtx.init s) s' ∧
      fellFrom (nextPc .cul th f s) t { t with cps := t.cps.filter (fun p => !(p.1 == u && p.2 == c)), z := true } (thrOf th s')) ∧
  (∀ (th : Thr) (f : Form) (s : State) (c : Nat), goesAhead .mtc th f s → operands th s [f.rs.val] [] →
    let u := f.imm.toNat / 16
    let n := f.imm.toNat % 16
    let k := ownCluster th s
    let y := cpxOf s k u c
    let x := tagged th s (inRs th s f).v (inRs th s f).tag
    ownCtx th s u = some c → n ∉ y.sb → (isPlain th s = true ∨ ((inRs th s f).tag ≤ 7 ∨ (inRs th s f).tag = tVOID) ∧ (creg y.c n).tag ≠ tBUF) →
    ∃ s', exec (.mtc th f) s = .next s' ∧
      fellFrom (nextPc .mtc th f s) (thrOf th s)
        (if isPlain th s = false ∧ (inRs th s f).tag = tBUF then withG th s f.rs TV.void else thrOf th s) (thrOf th s') ∧
      (∀ r, creg (cpxOf s' k u c).c r = if r = n then x else creg y.c r) ∧
      (∀ j, j ≠ cpxKey k u c → mget s'.cpx.ctx j CpxCtx.init = mget s.cpx.ctx j CpxCtx.init) ∧
      outside th { s with cpx := { s.cpx with ctx := s'.cpx.ctx } } s') ∧
  (∀ (th : Thr) (f : Form) (s : State) (c : Nat), goesAhead .mfc th f s → operands th s [] [f.rd.val] →
    let u := f.imm.toNat / 16
    let n := f.imm.toNat % 16
    let k := ownCluster th s
    let y := cpxOf s k u c
    let x := creg y.c n
    ownCtx th s u = some c → n ∉ y.sb → (isPlain th s = true ∨ x.tag ≤ 8 ∨ x.tag = tVOID) →
    ∃ s', exec (.mfc th f) s = .next s' ∧
      fellFrom (nextPc .mfc th f s) (thrOf th s) (withG th s f.rd (tagged th s x.v x.tag)) (thrOf th s') ∧
      (∀ r, creg (cpxOf s' k u c).c r = if r = n ∧ isPlain th s = false ∧ x.tag = tBUF then TV.void else creg y.c r) ∧
      (∀ j, j ≠ cpxKey k u c → mget s'.cpx.ctx j CpxCtx.init = mget s.cpx.ctx j CpxCtx.init) ∧
      outside th { s with cpx := { s.cpx with ctx := s'.cpx.ctx } } s')

/-- R295, R296, R305: every GO starts its command. -/
def Obligations.CoprocessorCommandsStart : Prop :=
  goRun .keyref .keyref 0 1 (fun _ => [(1, [tINT])]) [2] false ∧
  goRun .gcmEnc .gcmEnc 0 2 (fun _ => [(1, [tKEY]), (2, [tBUF])] ++ plainOps [3, 4, 5, 6, 7, 8]) [9, 10, 11, 12] true ∧
  goRun .gcmDec .gcmDec 0 3 (fun _ => [(1, [tKEY]), (2, [tBUF])] ++ plainOps [3, 4, 5, 6, 7, 8, 9, 10, 11, 12]) [] true ∧
  goRun .sha256 .sha256 0 4 (fun _ => [(2, [tBUF])] ++ plainOps [3, 5]) [8, 9, 10, 11, 12, 13, 14, 15] false ∧
  goRun .lmsVerify .lmsVerify 0 5 (fun _ => [(2, [tBUF])] ++ plainOps [3, 4, 5, 8, 9, 10, 11, 12, 13, 14, 15]) [] false ∧
  goRun .lkpLookup .lookup 1 1 (fun _ => [(1, [tTBL])] ++ plainOps [2, 3, 4, 5, 6, 7, 8, 9, 12, 13]) [10, 11] false ∧
  goRun .lkpInsert .insertOp 1 2 (fun _ => [(1, [tTBL])] ++ plainOps [2, 3, 4, 5, 6, 7, 8, 9, 10, 11]) [] true ∧
  goRun .lkpUpdate .updateOp 1 3 (fun _ => [(1, [tTBL])] ++ plainOps [2, 3, 4, 5, 6, 7, 8, 9, 10, 11]) [] true ∧
  goRun .lkpDelete .deleteOp 1 4 (fun _ => [(1, [tTBL])] ++ plainOps [2, 3, 4, 5, 6, 7, 8, 9]) [] true ∧
  goRun .lkpHitread .hitread 1 5 (fun _ => [(1, [tTBL])] ++ plainOps [2, 3, 4, 5, 6, 7, 8, 9]) [12] false ∧
  goRun .patScan .scan 2 1 (fun _ => [(1, [tBUF])] ++ plainOps [2, 3, 4]) [5] false ∧
  goRun .police .police 3 1 (fun _ => plainOps [1, 2, 3]) [4] true ∧
  goRun .mtrCount .countOp 3 2 (fun _ => plainOps [1, 2]) [] true ∧
  goRun .cntread .cntread 3 3 (fun _ => plainOps [1]) [4, 5, 6, 7] false ∧
  goRun .cntclr .cntclr 3 4 (fun _ => plainOps [1]) [4, 5, 6, 7] true ∧
  goRun .copy .copy 4 1 (fun c => extOp c 3 :: extOp c 6 :: plainOps [1, 2, 4, 5, 7]) [9] true ∧
  goRun .fill .fill 4 2 (fun c => extOp c 6 :: plainOps [4, 5, 7, 8]) [9] true ∧
  goRun .armCreate .armCreate 5 1 (fun _ => (2, [tINT, tTIME]) :: plainOps [1, 4, 5, 6, 7]) [10] true ∧
  goRun .armMsg .armMsg 5 2 (fun _ => (2, [tINT, tTIME]) :: plainOps [1, 4, 5, 6, 7, 8, 9]) [10] true ∧
  goRun .disarm .disarm 5 3 (fun _ => plainOps [11]) [] true ∧
  goRun .hmsg .hmsg 6 1 (fun _ => plainOps [1, 2, 3, 4, 5, 6, 7, 8, 9]) [] true

/-- R10 to R16, R49 to R51, R521 to R528: registers and the blocks' headers. -/
def Obligations.RegisterWrites : Prop :=
  (∀ (r : Req) (off : Nat) (v : Word) (s : State) (d : RegDesc), (r = .pf ∨ r = .steward) → mget s.ctl.flr 0 false = false →
    ¬(0x40000 ≤ off ∧ off < 0x42040) → isHdr off = false → onBasic off = false → mayWrite r off s → regRow off = some d →
    expertDenied s off = false → regCmd r off v s = none → cmdBusy r off s = false → gateHeld s off = false →
    blkOf off ∉ [12, 14, 16, 23] →
    (d.legal v = true → legalAt s off d v = true → d.cls ≠ .h → (d.cls = .s → blkIdle s (blkOf off) (copyOf off) = true) →
      becomes (.registerWrite r off 15 v) s (expertSet off (rset s (regKey r off) (d.apply (rShow s (regKey r off)) v)))) ∧
    (d.legal v = true → legalAt s off d v = true → d.cls = .h → hNow off s = false →
      gives (.registerWrite r off 15 v) s (fun t => (∀ k, rv t k = rv s k) ∧
        mfind t.regs.shadow (regKey r off) = some (d.apply (rShow s (regKey r off)) v))) ∧
    (legalAt s off d v = false →
      gives (.registerWrite r off 15 v) s (fun t => (∀ k, rv t k = rv s k) ∧ (blkGet t (blkOf off) (copyOf off)).cfgReject = true))) ∧
  (∀ (r : Req) (off : Nat) (be : BitVec 4) (v : Word) (s : State), (r = .pf ∨ r = .steward) → mget s.ctl.flr 0 false = false →
    ¬(0x40000 ≤ off ∧ off < 0x42040) → be ≠ 15 → becomes (.registerWrite r off be v) s (accErr r 1 off s)) ∧
  (∀ (r : Req) (v : Word) (s : State), mayWrite r 0x1028 s → w32 (blkSum s (fun k => k.expert)) &&& v = 0 →
    becomes (.glbExpdeny r v) s (rset s 0x1028 (rv s 0x1028 ||| (v &&& 0x3FFFFFFF)))) ∧
  (∀ (r : Req) (v : Word) (s : State), mayWrite r 0x1028 s → w32 (blkSum s (fun k => k.expert)) &&& v ≠ 0 →
    gives (.glbExpdeny r v) s (fun t => (∀ k, rv t k = rv s k) ∧ (blkGet t 0 0).cfgReject = true)) ∧
  (∀ (off : Nat) (w : Word) (s : State), blkOf off = 10 → mfind s.regs.shadow off = some w →
    becomes (.hFieldCommit off) s { s with regs := { s.regs with
      vals := mins s.regs.vals off w, shadow := mdel s.regs.shadow off } })

/-- R49, R50: IDLE_REQ and the states of a block copy. R522 to R524: the indirect port of a virtual function. -/
def Obligations.BlockStatesIndirectPort : Prop :=
  (
  ∀ (r : Req) (b : Fin 30) (c : Fin 64) (s : State), b.val ≠ 7 →
    let k := blkGet s b.val c.val
    (c.val < blkCopies b.val → mayWrite r (stateOff b.val c.val) s →
      (k.st = .run → gives (.idleReqWrite r b c true) s (fun t => onlyRegs s t ∧
        blkGet t b.val c.val = { k with idleReq := true, st := if blkBusy s b.val then .draining else .idle, byReq := true } ∧
        ∀ j, j ≠ blkKey b.val c.val → mget t.regs.blk j BlkCopy.init = mget s.regs.blk j BlkCopy.init)) ∧
      ((k.st = .draining ∨ k.st = .idle ∧ k.byReq = true) → gives (.idleReqWrite r b c false) s (fun t => onlyRegs s t ∧
        blkGet t b.val c.val = { k with idleReq := false, st := .run, byReq := false }))) ∧
    (k.st = .draining → blkBusy s b.val = false → gives (.blockDrainDone b c) s (fun t => onlyRegs s t ∧
      blkGet t b.val c.val = { k with st := .idle } ∧
      ∀ j, j ≠ blkKey b.val c.val → mget t.regs.blk j BlkCopy.init = mget s.regs.blk j BlkCopy.init))) ∧
  (
  ∀ (v : Fin 32) (s : State), flrRuns v s = false →
    let off := iaOff v s
    (mayRead (.vf v) off s → gives (.iadataRead v) s (fun t => rv t (iaSts v) = 0 ∧
      (∃ w, (.readData (.vf v) w) ∈ t.outs) ∧ (rb s (iaAddr v) 31 = false → rv t (iaAddr v) = rv s (iaAddr v)))) ∧
    (∀ (w : Word), mayWrite (.vf v) off s → rb (regWriteDo (.vf v) off w s) (iaAddr v) 31 = false →
      becomes (.iadataWrite v 15 w) s (rset (regWriteDo (.vf v) off w s) (iaSts v) 0)) ∧
    (∀ (be : BitVec 4) (w : Word), be ≠ 15 → rb s (iaAddr v) 31 = false →
      becomes (.iadataWrite v be w) s (rset (accErr (.vf v) 1 off s) (iaSts v) 2)))

/-- R96, R97, R114 to R118: frames, admission and flow control of the network ports. -/
def Obligations.PortFrames : Prop :=
  (∀ (m : Fin 64) (b : List Byte) (corr unc : Fin 65536) (s : State) (p : PortRec) (i : Nat), macPort s m.val = some p →
    attached s m.val = true → macRetrains s m.val = false → running s 9 m.val = true → 60 ≤ b.length →
    b.length + 4 ≤ rf s (macCfg m.val) 13 0 → fcKind b = 0 → be16 b 12 ≠ 0x88E5 → rf s (0xC18800 + 4 * m.val) 3 2 ≠ 1 →
    p.lport < 64 → portInst s p.lport = some i → insState s i = .run → running s 12 0 = true → fcMode s p.lport = 0 →
    occOf s p.lport 0 = ⟨0, 0, 0⟩ → cdiv b.length 256 ≤ guarOf s p.lport 0 → (∃ c, c < 196608 ∧ pktOf s c = none) →
    gives (.frameReceive m (b ++ fcsOf b) false corr unc) s (fun t => ∃ cell, pktOf s cell = none ∧
      (pktOf t cell).map (fun q => (q.inst, q.win, q.bytes, q.inPort, q.cells)) = some (i, b, b, p.lport, cdiv b.length 256) ∧
      mget t.port.toParse (m.val / 16) [] = mget s.port.toParse (m.val / 16) [] ++ [cell] ∧ occOf t p.lport 0 = ⟨cdiv b.length 256, 0, 0⟩ ∧
      ∀ j, j ≠ cell → pktOf t j = pktOf s j)) ∧
  (∀ (m : Fin 64) (fr : List Byte) (s : State) (p : PortRec) (c : Fin 8), macPort s m.val = some p → attached s m.val = true →
    running s 9 m.val = true → fcMode s p.lport = 1 → fcKind fr = 1 → be16 fr 16 ≠ 0 → phyRate (rf s (macCfg m.val) 27 24) ≠ 0 →
    gives (.flowctlFrameReceive m fr) s (fun t => onlyPorts s t ∧ mfind t.port.paused (p.lport * 8 + c.val) =
      some (s.clk.fab + (be16 fr 16 * 512 + phyRate (rf s (macCfg m.val) 27 24) - 1) / phyRate (rf s (macCfg m.val) 27 24)))) ∧
  (∀ (n : Fin 64) (c : Fin 8) (s : State) (at_ : Nat), mfind s.port.paused (n.val * 8 + c.val) = some at_ → at_ ≤ s.clk.fab →
    becomes (.pauseExpire n c) s { s with port := { s.port with paused := mdel s.port.paused (n.val * 8 + c.val) } }) ∧
  (∀ (i : Fin 32) (s : State) (at_ : Nat) (p : PortRec) (c : Nat), mfind s.port.noCtx i.val = some at_ →
    at_ + rf s 0x1009104 15 0 ≤ s.clk.fab → ctxFree s i.val = 0 → p ∈ s.img.port → p.inst = i.val → c < 8 →
    lossless s p.lport c = true → gives (.ctxHoldExpire i) s (fun t => onlyPorts s t ∧
      mget t.port.xoff (p.lport * 8 + c) false = true ∧ rb t 0x1001000 i.val = true)) ∧
  (∀ (n : Fin 64) (s : State) (p : PortRec), lportRec s n.val = some p → mget s.port.fcq n.val false = true → fcMode s n.val ≠ 0 →
    portRate s n.val ≠ 0 → gives (.flowctlFrameSend n) s (fun t => ∃ fr : List Byte, t.outs = s.outs ++ [.frame n.val fr false true] ∧
      fr.length = 60 ∧ fr.take 6 = [0x01, 0x80, 0xC2, 0x00, 0x00, 0x01] ∧ mget t.port.fcq n.val false = false ∧ t.cores = s.cores)) ∧
  (∀ (n : Fin 64) (s : State) (c : Nat), c < 8 → mget s.port.xoff (n.val * 8 + c) false = true → portRate s n.val ≠ 0 →
    mget s.port.fcAt n.val 0 + cdiv (32768 * 512) (portRate s n.val) ≤ s.clk.fab →
    becomes (.flowctlRepeat n) s { s with port := { s.port with fcq := mput s.port.fcq n.val true false } }) ∧
  (∀ (m : Fin 64) (s : State) (p : PortRec) (c : Nat), macPort s m.val = some p → c < 8 → gives (.localFault m) s (fun t =>
    onlyPorts s t ∧ mget t.port.lfault m.val false = true ∧ mget t.port.xoff (p.lport * 8 + c) false = false ∧
    mfind t.port.paused (p.lport * 8 + c) = none ∧ t.regs = s.regs)) ∧
  (∀ (m : Fin 64) (s : State), becomes (.localFaultClear m) s
    { s with port := { s.port with lfault := mput s.port.lfault m.val false false } }) ∧
  (∀ (r : Req) (n : Fin 64) (v : Word) (s : State) (c : Nat), c < 8 → mayWrite r (0x1000100 + 4 * n.val) s →
    (blkGet s 12 0).expert = false → bits v 31 30 ≠ 3 → bits v 23 16 = 0 →
    let mf := match lportRec s n.val with
      | some p => rf s (macCfg p.mac) 13 0
      | none => 1522
    let rate := match lportRec s n.val with
      | some p => phyRate (rf s (macCfg p.mac) 27 24)
      | none => 0
    mf ≤ 16383 →
    4608 ≤ sharedPool (fcDerive n.val v mf rate (rset s (0x1000100 + 4 * n.val) (v &&& 0xF8FF0FFF))) →
    gives (.fcbasicWrite r n v) s (fun t => onlyRegs s t ∧ fcMode t n.val = bits v 31 30 ∧ lossless t n.val c = false ∧
      guarOf t n.val c = 2 * cdiv mf 256 ∧ headroomOf t n.val c = 0 ∧ sharedLimit t n.val c = 8192))

/-- R99 to R101: lanes and eye scans. R104 to R107: the keys of MACsec. -/
def Obligations.LanesAndKeys : Prop :=
  (
  (∀ (l : Fin 32) (s : State), gives (.laneLossOfLock l) s (fun t => rf t (laneSts l.val) 30 28 = 1 ∧
    ∀ k ∈ laneGroup s l.val, mget t.port.retrain k false = true)) ∧
  (∀ (r : Req) (l : Fin 32) (s : State), mayWrite r (0x801000 + 0x20000 * l.val) s → gives (.retrain r l) s (fun t => onlyPorts s t ∧
    ∀ k ∈ laneGroup s l.val, mget t.port.retrain k false = true ∧ rb t (laneSts k) 29 = false ∧
      (rf s (laneSts k) 27 26 = 1 → rf t (laneSts k) 27 26 = 3))) ∧
  (∀ (l : Fin 32) (s : State), gives (.retrainDone l) s (fun t => onlyPorts s t ∧ ∀ k ∈ laneGroup s l.val,
    mget t.port.retrain k false = false ∧ (mget s.port.retrain k false = true → rf t (laneSts k) 31 29 = 7))) ∧
  (∀ (r : Req) (l : Fin 32) (s : State), mayWrite r (0x801000 + 0x20000 * l.val) s →
    becomes (.eyeScan r l) s (rsetF s (laneSts l.val) 27 26 1)) ∧
  (∀ (l : Fin 32) (h w : Fin 65536) (s : State), rf s (laneSts l.val) 27 26 = 1 → w.val ≤ 1000 → gives (.eyeScanDone l h w) s (fun t =>
    onlyRegs s t ∧ rf t (laneSts l.val) 27 26 = 2 ∧ (rv t (0x801008 + 0x20000 * l.val)).toNat = 65536 * h.val + w.val ∧
    regsBut [laneSts l.val, 0x801008 + 0x20000 * l.val] s t))) ∧
  (
  ∀ (r : Req) (m c : Fin 64) (an : Fin 4) (s : State), mayWrite r 0xC01040 s → macsecOff s = false → reqPriv r = true →
    rb s (scCfg m.val c.val) 31 = true →
    let key := saOf s m.val c.val an.val
    let bank := (List.range 12).map (fun w => rv s (reqKey r (0xC01000 + 4 * w)))
    let lo := (rv s (reqKey r 0xC01044)).toNat
    (key = none → scXpn s m.val c.val = false → rf s (scCfg m.val c.val) 23 21 % 2 = 0 →
      gives (.mscInstall r m c an) s (fun t =>
        saOf t m.val c.val an.val = some { key := bank.take 4, salt := [], ssci := 0, pn := lo } ∧
        rv t (reqKey r 0xC0104C) = 0 ∧ ∀ w, w < 12 → rv t (reqKey r (0xC01000 + 4 * w)) = 0)) ∧
    (key ≠ none → gives (.mscInstall r m c an) s (fun t => saOf t m.val c.val an.val = key ∧ rv t (reqKey r 0xC0104C) = 2)) ∧
    (key ≠ none → gives (.mscDelete r m c an) s (fun t => saOf t m.val c.val an.val = none ∧ rv t (reqKey r 0xC0104C) = 0)) ∧
    (key ≠ none → rb s (scCfg m.val c.val) 30 = true → gives (.txSwitch r m c an) s (fun t =>
      mfind t.port.txNext (64 * m.val + c.val) = some an.val ∧ rv t (reqKey r 0xC0104C) = 0)) ∧
    (∀ x, key = some x → gives (.readPn r m c an) s (fun t => onlyRegs s t ∧ rv t (reqKey r 0xC01044) = BitVec.ofNat 32 x.pn ∧
      rv t (reqKey r 0xC01048) = BitVec.ofNat 32 (x.pn / 2 ^ 32) ∧ rv t (reqKey r 0xC0104C) = 0)) ∧
    gives (.readStats r m c an) s (fun t => onlyRegs s t ∧ rv t (reqKey r 0xC0104C) = 0 ∧ ∀ k, k < 32 →
      (rv t (reqKey r (0xC01100 + 4 * k))).toNat = Nat.min (2 ^ 32 - 1)
        ((((mget s.port.stats (64 * m.val + c.val) [])[k]?).getD 0).toNat + (((mget s.port.stats (4096 + m.val) [])[k]?).getD 0).toNat)))

/-- R108 to R113: the PTP time counter. -/
def Obligations.PtpClock : Prop :=
  (∀ (r : Req) (s : State), mayWrite r 0xE08014 s → expertDenied s 0xE08014 = false →
    gives (.ptpSet r) s (fun t => t.clk.sec = rf s 0xE0800C 15 0 * 2 ^ 32 + (rv s 0xE08008).toNat ∧
      t.clk.ns = (rv s 0xE08004).toNat ∧ t.clk.frac = 0 ∧ t.clk.fab = s.clk.fab ∧ t.cores = s.cores)) ∧
  (∀ (r : Req) (s : State), mayWrite r 0xE08014 s → expertDenied s 0xE08014 = false → s.clk.sec < 2 ^ 47 → s.clk.ns < 10 ^ 9 →
    0 ≤ (rv s 0xE08010).toInt →
    gives (.ptpStep r) s (fun t => t.clk.sec * 10 ^ 9 + t.clk.ns = s.clk.sec * 10 ^ 9 + s.clk.ns + (rv s 0xE08010).toNat ∧
      t.clk.ns < 10 ^ 9 ∧ t.clk.frac = s.clk.frac ∧ t.cores = s.cores)) ∧
  (∀ (r : Req) (s : State), mayRead r 0xE01000 s → gives (.ptpTimeLatch r) s (fun t =>
    t.outs = s.outs ++ [.readData r (BitVec.ofNat 32 (s.clk.frac / 2 ^ 24))] ∧ t.clk = s.clk ∧
    rv t (reqKey r 0xE01004) = BitVec.ofNat 32 s.clk.ns ∧ rv t (reqKey r 0xE01008) = BitVec.ofNat 32 s.clk.sec ∧
    rv t (reqKey r 0xE0100C) = BitVec.ofNat 32 (s.clk.sec / 2 ^ 32))) ∧
  (∀ (r : Req) (m : Fin 64) (s : State) (x : Tsf) (l : List Tsf), mayRead r (0xE01100 + 0x10 * m.val) s →
    mget s.port.tsf m.val [] = x :: l → gives (.tsfPop r m) s (fun t => onlyPorts s t ∧ mget t.port.tsf m.val [] = l ∧
      mget t.port.tsfOvf m.val false = false ∧ rv t (0xE01104 + 0x10 * m.val) = BitVec.ofNat 32 x.ns ∧
      t.outs = s.outs ++ [.readData r (BitVec.ofNat 32
        (2 ^ 31 + 2 ^ 30 * (mget s.port.tsfOvf m.val false).toNat + x.tag % 2 ^ 28))])) ∧
  (∀ (s : State), rb s 0xE08018 31 = true → s.clk.ns < 100 * rf s 0xE08018 19 0 →
    becomes .ppsOutPulse s { s with port := { s.port with ppsOut := true } }) ∧
  (∀ (s : State), rb s 0xE08018 30 = true → gives .ppsInCapture s (fun t => onlyRegs s t ∧
    rv t 0xE01604 = BitVec.ofNat 32 s.clk.ns ∧ rv t 0xE01608 = BitVec.ofNat 32 s.clk.sec ∧ rv t 0xE0160C = 0 ∧
    regsBut [0xE01600, 0xE01604, 0xE01608, 0xE0160C] s t)) ∧
  (∀ (s : State), rb s 0xE08018 29 = true →
    (s.port.sync10 ≠ 9 → becomes .sync10mCapture s { s with port := { s.port with sync10 := s.port.sync10 + 1 } }) ∧
    (s.port.sync10 = 9 → gives .sync10mCapture s (fun t => t.port.sync10 = 0 ∧ rv t 0xE01604 = BitVec.ofNat 32 s.clk.ns ∧
      rv t 0xE0160C = 1)))

/-- R103, R129 to R139, R154, R468, R469: a packet from its parser through the editor and the governors to the wire. -/
def Obligations.PacketPath : Prop :=
  (∀ (p : Fin 4) (s : State) (c : Nat) (l : List Nat) (k : Pkt) (e : Nat), mget s.port.toParse p.val [] = c :: l →
    running s 13 p.val = true → pktOf s c = some k → k.inst < 32 → 4 ≤ k.slot → epochCur s k.inst = some e →
    rf s (epochSts k.inst e) 29 16 < 16383 → gives (.parsePass p) s (fun t =>
      pktOf t c = some { k with slot := e, parse := parseFrame s (graphOf s k.inst e) k (rf s (epochSts k.inst e) 15 0) } ∧
      rf t (epochSts k.inst e) 29 16 = rf s (epochSts k.inst e) 29 16 + 1 ∧ mget t.port.toParse p.val [] = l ∧
      mget t.port.toClass p.val [] = mget s.port.toClass p.val [] ++ [c] ∧ ∀ j, j ≠ c → pktOf t j = pktOf s j)) ∧
  (∀ (p : Fin 4) (s : State) (c : Nat) (l : List Nat) (k : Pkt), mget s.port.toParse p.val [] = c :: l →
    running s 13 p.val = true → pktOf s c = some k → k.inst < 32 → k.slot < 4 → rf s (epochSts k.inst k.slot) 31 30 = 3 →
    gives (.parsePass p) s (fun t => pktOf t c = none ∧ mget t.port.toParse p.val [] = l ∧
      mget t.port.toClass p.val [] = mget s.port.toClass p.val [] ∧
      rv t (0x180101C + 0x80 * k.inst) = w32 (satAdd 32 (rv s (0x180101C + 0x80 * k.inst)).toNat 1))) ∧
  (∀ (s : State) (f : EFrame) (l : List EFrame) (p : Pkt), s.port.toEdit = f :: l → running s 25 0 = true → pktOf s f.cell = some p →
    p.inst < 32 →
    let u : State := { s with port := { s.port with toEdit := l } }
    let r := edRun u p
    (r.ttl = true → gives .egressEdit s (fun t => pktOf t f.cell = none ∧ t.port.toGov = s.port.toGov ∧
      rv t (0x180102C + 0x80 * p.inst) = w32 (satAdd 32 (rv s (0x180102C + 0x80 * p.inst)).toNat 1))) ∧
    (r.ttl = false → maxFrame s f.port < max 60 r.bytes.length + 4 → gives .egressEdit s (fun t => pktOf t f.cell = none ∧
      t.port.toGov = s.port.toGov ∧ rv t (0x1801030 + 0x80 * p.inst) = w32 (satAdd 32 (rv s (0x1801030 + 0x80 * p.inst)).toNat 1))) ∧
    (r.ttl = false → max 60 r.bytes.length + 4 ≤ maxFrame s f.port → f.port < 64 → gives .egressEdit s (fun t =>
      pktOf t f.cell = some p ∧ t.port.toEdit = l ∧ ∃ bs : List Byte, bs.length = max 60 r.bytes.length ∧
        bs.take r.bytes.length = r.bytes ∧ t.port.toGov = s.port.toGov ++ [{ f with bytes := bs, ptp := ptpOf u p r }])) ∧
    (r.ttl = false → max 60 r.bytes.length + 4 ≤ 9216 → 64 ≤ f.port → f.port ≤ 96 → gives .egressEdit s (fun t =>
      pktOf t f.cell = some p ∧ ∃ bs : List Byte, bs.length = max 60 r.bytes.length ∧ bs.take r.bytes.length = r.bytes ∧
        t.port.toTx = s.port.toTx ++ [{ f with bytes := bs, ptp := ptpOf u p r }])) ∧
    (r.ttl = false → max 60 r.bytes.length + 4 ≤ 9216 → f.port = 120 → gives .egressEdit s (fun t => ∃ q bs, pktOf t f.cell = some q ∧
      bs.length = max 60 r.bytes.length ∧ bs.take r.bytes.length = r.bytes ∧ q.win = bs ∧ q.pass = p.pass + 1 ∧ q.inPort = 120 ∧
      q.slot = p.slot ∧ mget t.port.toParse p.pipe [] = mget s.port.toParse p.pipe [] ++ [f.cell]))) ∧
  (∀ (s : State) (f : EFrame) (l : List EFrame), s.port.toGov = f :: l → running s 26 0 = true →
    let u : State := { s with port := { s.port with toGov := l } }
    (rb s (govSts f.port) 31 = false → ∀ b, govJudge u f.port f.bytes = .inr b →
      becomes .governorFrame s { u with port := { u.port with toTx := s.port.toTx ++ [f] },
                                        sec := { s.sec with gov := mins s.sec.gov f.port b } }) ∧
    (rb s (govSts f.port) 31 = true → gives .governorFrame s (fun t => pktOf t f.cell = none ∧ t.port.toGov = l ∧
      t.port.toTx = s.port.toTx ∧ t.outs = s.outs ∧ t.sec = s.sec)) ∧
    (rb s (govSts f.port) 31 = false → ∀ r, govJudge u f.port f.bytes = .inl r → gives .governorFrame s (fun t =>
      pktOf t f.cell = none ∧ t.port.toTx = s.port.toTx))) ∧
  (∀ (s : State), s.clk.fab / 1000000 ≠ s.sec.govWin → gives .govWindow s (fun t => t.sec.govWin = s.clk.fab / 1000000 ∧
    ∀ n, n < 64 → rf t (govSts n) 15 0 = 0 ∧ rf t (govSts n) 31 29 = rf s (govSts n) 31 29)) ∧
  (∀ (n : Fin 64) (s : State) (r : PortRec) (f : EFrame) (l : List EFrame), lportRec s n.val = some r → s.port.toTx = f :: l →
    f.port = n.val → f.ptp = none → portRate s n.val ≠ 0 → macRetrains s r.mac = false → mget s.port.lfault r.mac false = false →
    txSecy s r.mac f.bytes = none → rf s (0xC18800 + 4 * r.mac) 1 0 ≠ 1 → r.mac < 64 → gives (.frameTransmit n) s (fun t =>
      t.outs = s.outs ++ [.frame n.val f.bytes ((pktOf s f.cell).getD Pkt.init).bad false] ∧ t.port.toTx = l ∧
      pktOf t f.cell = none))

/-- R129: the headers of a parse result lie one behind the other from offset 0 to END_OFF, within the frame and the header window, and
are at most 16, or 24 on a LONG port. -/
def Obligations.ParsedHeadersAreContiguous : Prop :=
  ∀ (s : State) (g : Graph) (p : Pkt) (e : Nat),
    let r := parseFrame s g p e
    (∀ k h, r.hdrs[k]? = some h → h.off = ((r.hdrs.take k).map (·.len)).sum) ∧ r.endOff = (r.hdrs.map (·.len)).sum ∧
    r.endOff ≤ p.win.length ∧ r.endOff ≤ (if portLong s p.inPort then 512 else 256) ∧
    r.hdrs.length ≤ (if portLong s p.inPort then 24 else 16) ∧ r.frameLen = p.win.length ∧ r.pass = p.pass

/-- R131, R136, R142, R153: what classification makes of a packet by its flags, and of one whose instance has no valid key profile.
R135, R136, R145: scan verdicts and the fragment-follow tables. -/
def Obligations.Classification : Prop :=
  (
  ∀ (n : Fin 4) (s : State) (c : Nat) (l : List Nat) (p : Pkt), mget s.port.toClass n.val [] = c :: l → running s 14 n.val = true →
    pktOf s c = some p → p.inst < 32 → (pipeLong s n.val = true ∨ fragKey (graphOf s p.inst p.slot) p = none) →
    (∀ r b, flagAct s p.inst p.parse.flags = (some r, b) → gives (.classifyPacket n) s (fun t => pktOf t c = none ∧
      mget t.port.toClass n.val [] = l ∧ ∀ j, j ≠ c → pktOf t j = pktOf s j)) ∧
    (∀ q, flagAct s p.inst p.parse.flags = (none, true) → trapQueue s p.inst = some q → gives (.classifyPacket n) s (fun t =>
      (pktOf t c).map (fun x => (x.queue, x.trap)) = some (q, some (256 + p.parse.flags)) ∧
      t.port.toTm = s.port.toTm ++ [c] ∧ mget t.port.toClass n.val [] = l)) ∧
    (flagAct s p.inst p.parse.flags = (none, false) →
      (∀ k, k < 4 → bit (er s p.inst p.slot (0x1808000 + 0x100 * p.inst + 0x40 * k)) 31 = false) →
      let d := er s p.inst p.slot (0x180A100 + 4 * p.inst)
      gives (.classifyPacket n) s (fun t => ∃ q : State, t = ctxAsk c q ∧ mget q.port.toClass n.val [] = l ∧
        (pktOf q c).map (fun x => (x.lkp, x.flow, x.wprio, x.posy)) = some ([], bits d 15 0, bits d 18 16, bits d 31 24) ∧
        (pktOf q c).map (fun x => (x.win, x.edits, x.scan, x.direct)) = some (p.win, [], p.scan, false) ∧
        ∀ j, j ≠ c → pktOf q j = pktOf s j))) ∧
  (
  (∀ (n : Fin 4) (v : Word) (s : State) (c ps k : Nat) (l : List (Nat × Nat × Nat)) (p : Pkt),
    mget s.hif.patQ n.val [] = (c, ps, k) :: l → active s 15 0 = true → pktOf s c = some p → p.pass = ps →
    (∀ e it, (e, it) ∈ s.dsp.items → it.cell ≠ some c) → gives (.scanVerdict n v) s (fun t =>
      pktOf t c = some { p with verdict := (verdictOf v).toNat } ∧ mget t.hif.patQ n.val [] = l ∧
      (∀ j, j ≠ c → pktOf t j = pktOf s j) ∧ t.cores = s.cores)) ∧
  (∀ (n : Fin 4) (s : State), gives (.fragEntryExpire n) s (fun t =>
    fragOf t n.val = (fragOf s n.val).filter (fun f =>
      decide (s.clk.fab < f.at_ + rf s (0x1408100 + 0x100000 * n.val) 7 0 * 1000000)) ∧
    (∀ m, m ≠ n.val → fragOf t m = fragOf s m) ∧ regsBut [prsCnt n.val 5] s t ∧ t.dsp = s.dsp)) ∧
  (∀ (r : Req) (n : Fin 4) (s : State), mayWrite r (0x1401C00 + 0x100000 * n.val) s → gives (.fragFlush r n) s (fun t =>
    fragOf t n.val = [] ∧ (∀ m, m ≠ n.val → fragOf t m = fragOf s m) ∧ t.regs = s.regs ∧ t.dsp = s.dsp)))

/-- R153: of the terminal operations of a packet's lists DROP outranks TRAP, TRAP outranks RECIRC and RECIRC outranks DIRECT. -/
def Obligations.TerminalOperationRank : Prop :=
  ∀ (s : State) (p : Pkt) (lkp : List Nat),
    let ops := (lkp.map (actList s p)).flatten
    (resolve s p lkp).term = if ops.any (fun o => o.op == 0x28) then 4 else if ops.any (fun o => o.op == 0x27) then 3
      else if ops.any (fun o => o.op == 0x2C) then 2 else if ops.any (fun o => o.op == 0x2B) then 1 else 0

/-- R138 to R141: the epochs of an instance's rule set. R150 to R152, R158, R159: action lists, automaton sets and templates are
written whole, or not at all. -/
def Obligations.EpochsAndRules : Prop :=
  (
  (∀ (r : Req) (i : Fin 32) (s : State), mayWrite r (0x1401000 + 0x10 * i.val) s → (instRec s i.val).isSome = true →
    rb s (epochRes i.val) 30 = false → s.load.kept = false →
    (∀ k, epochSlot s i.val = some k → gives (.epochCommit r i) s (epochTaken i.val k s)) ∧
    (epochSlot s i.val = none → becomes (.epochCommit r i) s (rsetF s (epochRes i.val) 30 30 1))) ∧
  (∀ (i : Fin 32) (s : State) (k : Nat), rb s (epochRes i.val) 30 = true → s.load.kept = false → epochSlot s i.val = some k →
    gives (.epochCommitPending i) s (epochTaken i.val k s)) ∧
  (∀ (r : Req) (i : Fin 32) (e : Fin 65536) (s : State), mayWrite r (0x1401000 + 0x10 * i.val) s →
    ((∀ k, k < 4 → rf s (epochSts i.val k) 31 30 = 0 ∨ rf s (epochSts i.val k) 15 0 ≠ e.val) →
      gives (.epochRetire r i e) s (fun t => rf t (epochRes i.val) 3 0 = 1 ∧ ∀ k, k < 4 → rv t (epochSts i.val k) = rv s (epochSts i.val k))) ∧
    (∀ k, k < 4 → rf s (epochSts i.val k) 15 0 = e.val → rf s (epochSts i.val k) 31 30 = 1 →
      (∀ j, j < k → rf s (epochSts i.val j) 31 30 = 0 ∨ rf s (epochSts i.val j) 15 0 ≠ e.val) →
      gives (.epochRetire r i e) s (fun t => rf t (epochRes i.val) 3 0 = 2 ∧ rv t (epochSts i.val k) = rv s (epochSts i.val k))) ∧
    (∀ k, k < 4 → rf s (epochSts i.val k) 15 0 = e.val → rf s (epochSts i.val k) 31 30 = 2 → rf s (epochSts i.val k) 29 16 ≠ 0 →
      (∀ j, j < k → rf s (epochSts i.val j) 31 30 = 0 ∨ rf s (epochSts i.val j) 15 0 ≠ e.val) →
      gives (.epochRetire r i e) s (fun t => rf t (epochRes i.val) 3 0 = 0 ∧ rf t (epochSts i.val k) 31 30 = 3 ∧
        rf t (epochSts i.val k) 29 0 = rf s (epochSts i.val k) 29 0)))) ∧
  (
  (∀ (r : Req) (p : Fin 4) (s : State), mayWrite r (0x1802004 + 0x100000 * p.val) s →
    let a := 0x1802000 + 0x100000 * p.val
    let slot := rf s a 12 0
    let ops := actParse 16 (wordBytes ((List.range 32).map (fun w => rv s (a + 0x100 + 4 * w))))
    (∀ l i, ops = some l → actOwner s slot = some i → (∀ o ∈ l, actOk s i o = true) →
      (slot ∉ liveSlots s → becomes (.actionWrite r p) s { s with rules := { s.rules with acts := mput s.rules.acts slot l [] } }) ∧
      (slot ∈ liveSlots s → becomes (.actionWrite r p) s (blkMod s 14 p.val (fun k => { k with cfgBusy := true })))) ∧
    (∀ l i o, ops = some l → actOwner s slot = some i → o ∈ l → actOk s i o = false →
      becomes (.actionWrite r p) s (cfgReject 14 p.val s)) ∧
    ((ops = none ∨ actOwner s slot = none) → becomes (.actionWrite r p) s (cfgReject 14 p.val s))) ∧
  (∀ (r : Req) (n : Fin 64) (v : Word) (s : State) (d : RegDesc), mayWrite r (0x1C08000 + 0x10 * n.val) s →
    rb s 0x1028 15 = false → bit v 31 = true → regRow (0x1C08000 + 0x10 * n.val) = some d →
    let a := 0x1C08000 + 0x10 * n.val
    (rb s a 31 = false → d.legal v = true →
      (rv s (a + 4)).toNat + (rv s (a + 8)).toNat ≤ instF s (bits v 28 24) (·.dramSize) * 256 →
      gives (.patSetEnable r n v true) s (fun t => rv t a = d.apply (rv s a) v ∧ regsBut [a] s t ∧ t.cores = s.cores)) ∧
    becomes (.patSetEnable r n v false) s (cfgReject 15 0 s) ∧
    (rb s a 31 = true → becomes (.patSetEnable r n v true) s (cfgReject 15 0 s))) ∧
  (∀ (r : Req) (s : State), mayWrite r 0x3C01004 s →
    let n := rf s 0x3C01000 9 0
    (tmplLive s n = true → becomes (.templateWrite r) s (blkMod s 25 0 (fun k => { k with cfgBusy := true }))) ∧
    (tmplLive s n = false → gives (.templateWrite r) s (fun t => ∀ j, mget t.rules.tmpls j ⟨[], 255, 255⟩ =
      if j = n then ⟨(((List.range 16).map (fun w => beBytes 4 (rv s (0x3C01100 + 4 * w)).toNat)).flatten).take (rf s 0x3C01140 6 0),
        rf s 0x3C01144 31 24, rf s 0x3C01144 23 16⟩
      else mget s.rules.tmpls j ⟨[], 255, 255⟩))))

/-- R163 to R166: items and messages of the host. -/
def Obligations.HostItemsAndMessages : Prop :=
  ∀ (r : Req) (n : Fin 32) (s : State) (i : Nat), mayWrite r 0x2001110 s → hostInst s r n.val = some i → i < 32 →
    (let ws := staged4 s r 0x2001100
     let w (k : Nat) : Nat := ((ws[k]?).getD 0).toNat
     (itemJudge i 3 none ws s ≠ 0 → gives (.hostItemCreate r n) s (fun t => t.dsp = s.dsp ∧
       rv t (reqKey r 0x2001130) = BitVec.ofNat 32 (itemJudge i 3 none ws s) ∧
       rv t (dspCnt i 7) = w32 (satAdd 32 (rv s (dspCnt i 7)).toNat 1))) ∧
     (itemJudge i 3 none ws s = 0 → (∃ e, e < 8192 ∧ itemOf s (8192 + e) = none) → gives (.hostItemCreate r n) s (fun t =>
       ∃ e it, itemOf s e = none ∧ 8192 ≤ e ∧ e < 16384 ∧ itemOf t e = some it ∧ it.kind = 3 ∧ it.prio = w 0 / 2 ^ 27 % 8 ∧
         it.inst = i ∧ it.posy = w 1 / 2 ^ 24 ∧ it.arg.toNat = w 3 ∧ it.cell = none ∧ rv t (reqKey r 0x2001130) = 0 ∧
         rv t (reqKey r 0x2001134) = BitVec.ofNat 32 (mget s.dsp.gens e 0 * 65536 + e) ∧ ∀ j, j ≠ e → itemOf t j = itemOf s j))) ∧
    (let wid := (rv s (reqKey r 0x2001114)).toNat
     let e := wid % 16384
     let k := rf s 0x2001118 1 0
     (mget s.dsp.gens e 0 ≠ wid / 65536 → gives (.hostMsgSend r n) s (fun t => t.dsp = s.dsp ∧ rv t (reqKey r 0x2001130) = 257)) ∧
     (∀ it, wid / 2 ^ 14 % 4 = 0 → mget s.dsp.gens e 0 = wid / 65536 → itemOf s e = some it → it.st = .waiting → it.inst = i →
       it.slots[k]? = some 4 → k ∉ it.got → gives (.hostMsgSend r n) s (fun t => rv t (reqKey r 0x2001130) = 256 ∧
         ∃ it', itemOf t e = some it' ∧ it'.got = k :: it.got ∧ mfind it'.msg k = some (staged4 s r 0x2001120) ∧
         ∀ j, j ≠ e → itemOf t j = itemOf s j)))

/-- R165, R167, R169: operands that arrive and waits that end. R171, R265, R266: the dispatcher delivers the one item that is ready
to the one worker thread that waits for it: the thread is READY with the packet, the context and the edit list of the item, and
its context block holds the descriptor and the WID. -/
def Obligations.Dispatching : Prop :=
  (
  (∀ (e : Fin 16384) (k : Fin 4) (s : State) (it : Item), running s 16 0 = true → itemOf s e.val = some it → it.st = .waiting →
    operandHere s it k.val = true → k.val ∉ it.got → gives (.operandArrive e k) s (fun t => ∃ it', itemOf t e.val = some it' ∧
      it'.got = k.val :: it.got ∧ it'.pkt = it.pkt ∧ (∀ j, j ≠ e.val → itemOf t j = itemOf s j) ∧ t.cores = s.cores ∧
      ((∀ j, j < 4 → (it.slots[j]?).getD 0 ≠ 0 → j = k.val ∨ j ∈ it.got ∨ j ∈ it.miss) → it'.st = .ready ∧ it'.readyAt = s.clk.fab ∧
        mget t.dsp.ready (it'.list * 8 + it.prio) [] = mget s.dsp.ready (it'.list * 8 + it.prio) [] ++ [e.val]) ∧
      ((∃ j, j < 4 ∧ (it.slots[j]?).getD 0 ≠ 0 ∧ j ≠ k.val ∧ j ∉ it.got ∧ j ∉ it.miss) → it'.st = .waiting ∧
        t.dsp.ready = s.dsp.ready))) ∧
  (∀ (e : Fin 16384) (s : State) (it : Item), running s 16 0 = true → itemOf s e.val = some it → it.st = .waiting →
    let w := rf s (0x2008080 + 4 * it.inst) 31 16 * 1000
    (w = 0 ∨ s.clk.fab < it.created + w → becomes (.msgWaitExpire e) s s) ∧
    (w ≠ 0 → it.created + w ≤ s.clk.fab → gives (.msgWaitExpire e) s (fun t => ∃ it', itemOf t e.val = some it' ∧
      it'.st = .ready ∧ (∀ j, j < 4 → (j ∈ it'.miss ↔ (it.slots[j]?).getD 0 = 4 ∧ j ∉ it.got)) ∧ it'.got = it.got ∧
      mget t.dsp.ready (it'.list * 8 + it.prio) [] = mget s.dsp.ready (it'.list * 8 + it.prio) [] ++ [e.val] ∧
      ∀ j, j ≠ e.val → itemOf t j = itemOf s j))) ∧
  (∀ (i : Fin 32) (n : Fin 4) (s : State) (c : Nat) (l : List Nat) (p : Pkt), running s 16 0 = true →
    mget s.dsp.wait (i.val * 4 + n.val) [] = c :: l → pktOf s c = some p → p.inst < 32 → p.from_ < 64 →
    lossless s p.from_ p.prio = false → rf s (0x2008080 + 4 * i.val) 15 0 ≠ 0 →
    p.since + rf s (0x2008080 + 4 * i.val) 15 0 * 1000 ≤ s.clk.fab → gives (.ctxWaitTimeout i n) s (fun t => pktOf t c = none ∧
      mget t.dsp.wait (i.val * 4 + n.val) [] = l.filter (· != c) ∧
      rv t (0x2001404 + 0x40 * p.inst) = w32 (satAdd 32 (rv s (0x2001404 + 0x40 * p.inst)).toNat 1)))) ∧
  (
  ∀ (s : State) (i e tid : Nat) (it : Item) (r : PosyRec), running s 16 0 = true → running s 18 0 = true → i < 32 →
    candidates s i = [(e, it)] → (∀ j, j < 32 → j ≠ i → candidates s j = []) → posyRec s it.list = some r → r.isSet = false →
    r.inst = i → it.prio < 8 → eligIn s it.list = [tid] → it.cell = none → (∀ k, k < 4 → (it.slots[k]?).getD 0 ≠ 3) →
    (mget s.dsp.ready (it.list * 8 + it.prio) []).head? = some e → gives .dispatch s (fun t =>
      let b := 0x1F800 + 0x100 * (tid % 8)
      (thr t tid).st = .ready ∧ (thr t tid).ctx = it.ctx ∧ (thr t tid).entry = some e ∧ (thr t tid).edit = it.edits ∧
      (thr t tid).pkt = TV.void ∧ mget (thr t tid).g 14 TV.void = tvInt (BitVec.ofNat 32 b) ∧
      (∀ k, k ≠ 14 → mget (thr t tid).g k TV.void = mget (thr s tid).g k TV.void) ∧
      (∀ k, k < 4 → cmNum t (tid / 8) (b + 4 * k) 4 = (((itemWords it)[k]?).getD 0).toNat) ∧
      cmNum t (tid / 8) (b + 16) 4 = widOf s e % 2 ^ 32 ∧ (itemOf t e).map (·.st) = some .held ∧
      e ∉ mget t.dsp.ready (it.list * 8 + it.prio) [] ∧ ∀ k, k ≠ tid → thr t k = thr s k))

/-- R177, R183, R478: ordered release, delay lists and items that are executed again. R184 to R187: a detector whose condition holds
raises DEADLOCK to the posy's supervisor once in a period, and one whose condition does not hold arms again. -/
def Obligations.ReleaseTimersDeadlock : Prop :=
  (
  (∀ (s : State) (f x c q : Nat) (p : Pkt), running s 17 0 = true → flowsDue s s.dsp.lastFlow = [f] → flowDue s f = some x →
    (ctxOf s x).flow = f → (ctxOf s x).cell = some c → (ctxOf s x).disp = .send q → pktOf s c = some p → s.dsp.wait = [] →
    gives .contextRelease s (fun t => ctxOf t x = Ctx.init ∧ flowSeq t f = (flowSeq s f).filter (fun y => y != x) ∧
      pktOf t c = some { p with queue := q } ∧ t.port.toTm = s.port.toTm ++ [c] ∧ t.dsp.lastFlow = f ∧
      ∀ y, y ≠ x → ctxOf t y = ctxOf s y)) ∧
  (∀ (s : State), running s 17 0 = true → (∀ f, f ∈ mkeys s.dsp.flows → flowDue s f = none) → becomes .contextRelease s s) ∧
  (∀ (l : Fin 16) (s : State), running s 16 0 = true →
    (dlNext s l.val = none → becomes (.timerFire l) s s) ∧
    (∀ n e, dlNext s l.val = some (n, e) → e.inst < 32 →
      (e.create = true → itemJudge e.inst 2 none e.words s = 4 ∨ itemJudge e.inst 2 none e.words s = 5 →
        gives (.timerFire l) s (fun t => mfind t.dsp.dl n = some { e with after := s.clk.fab } ∧ t.dsp.items = s.dsp.items ∧
          ∀ m, m ≠ n → mfind t.dsp.dl m = mfind s.dsp.dl m)) ∧
      (e.create = true → itemJudge e.inst 2 none e.words s = 0 → (∃ k, k < 8192 ∧ itemOf s (8192 + k) = none) →
        gives (.timerFire l) s (fun t => mfind t.dsp.dl n = none ∧ (∀ m, m ≠ n → mfind t.dsp.dl m = mfind s.dsp.dl m) ∧
          ∃ k it, itemOf s k = none ∧ itemOf t k = some it ∧ it.kind = 2 ∧ it.inst = e.inst ∧
            it.posy = (((e.words[1]?).getD 0).toNat) / 2 ^ 24 ∧ ∀ j, j ≠ k → itemOf t j = itemOf s j)) ∧
      (e.create = false → gives (.timerFire l) s (fun t => mfind t.dsp.dl n = none ∧
        (∀ m, m ≠ n → mfind t.dsp.dl m = mfind s.dsp.dl m) ∧
        ∀ it, let wid := ((e.words[0]?).getD 0).toNat
          wid / 2 ^ 14 % 4 = 0 → mget s.dsp.gens (wid % 16384) 0 = wid / 65536 → itemOf s (wid % 16384) = some it → it.st = .waiting →
          it.inst = e.inst → e.slot < 4 → it.slots[e.slot]? = some 4 → e.slot ∉ it.got →
          ∃ it', itemOf t (wid % 16384) = some it' ∧ it'.got = e.slot :: it.got ∧ mfind it'.msg e.slot = some (e.words.drop 1))))) ∧
  (∀ (e : Fin 16384) (s : State) (it : Item), running s 16 0 = true → itemOf s e.val = some it → it.st = .again →
    gives (.reexecReady e) s (fun t => ∃ l, itemOf t e.val = some { it with st := .ready, list := l } ∧
      mget t.dsp.ready (l * 8 + it.prio) [] = e.val :: mget s.dsp.ready (l * 8 + it.prio) [] ∧
      (rb s (0x2008000 + 4 * it.inst) 31 = false → l = it.posy) ∧ (∀ j, j ≠ e.val → itemOf t j = itemOf s j) ∧
      t.dsp.ctxs = s.dsp.ctxs ∧ t.cores = s.cores))) ∧
  (
  ∀ (x : Fin 255) (s : State), running s 16 0 = true →
    (deadlocked s x.val = false → becomes (.deadlockDetect x) s { s with dsp := { s.dsp with
      qdFired := s.dsp.qdFired.filter (· != x.val) } }) ∧
    (deadlocked s x.val = true → x.val ∈ s.dsp.qdFired → becomes (.deadlockDetect x) s s) ∧
    (∀ r u, deadlockReady s x.val = true → (∀ q ∈ s.img.posy, q.id ≠ x.val → posyIn s x.val q.id = true → deadlockReady s q.id = false) →
      posyRec s x.val = some r → r.inst < 32 → supOf s x.val = some u → (thr s u).st = .ready → (thr s u).evq.length < 16 →
      (thr s u).fq = [] → gives (.deadlockDetect x) s (fun t => x.val ∈ t.dsp.qdFired ∧ ∃ ev : Ev,
        (thr t u).evq = (thr s u).evq ++ [ev] ∧ ev.code = 0x61 ∧ ev.posy = x.val ∧ ev.info = (wSet s x.val).length ∧
        ev.info2 = (rf s (0x2008100 + 4 * r.inst) 24 0 * 4096 + 8192 * x.val) / 64 ∧
        (thr t u).st = .ready ∧ (thr t u).g = (thr s u).g ∧ ∀ k, k ≠ u → thr t k = thr s k)))

/-- R195, R199, R202 to R204, R212: what befalls cores and threads from outside their programs. -/
def Obligations.CoreFaultsAndSpares : Prop :=
  (∀ (t : Thr) (s : State), running s 18 0 = true → thrLive s (tidTh t) = true → hwMasked (.coreParity t) t 0x19 s) ∧
  (∀ (t : Thr) (s : State), running s 18 0 = true → thrLive s (tidTh t) = true → wdogDue s (tidTh t) = true →
    hwMasked (.stallWdogExpire t) t 0x1A s) ∧
  (∀ (t : Thr) (s : State), wdogDue s (tidTh t) = false → becomes (.stallWdogExpire t) s s) ∧
  (∀ (t : Thr) (s : State) (fl : FltRec) (q : Nat), running s 18 0 = true → (thr s (tidTh t)).st = .held →
    (thr s (tidTh t)).flt = some fl → fl.queuedAt = some q → q + rf s 0x2808004 15 0 * 1000 ≤ s.clk.fab →
    (thr s (tidTh t)).ctx = none → (thr s (tidTh t)).entry = none → (thr s (tidTh t)).cps = [] → locksHeld s (tidTh t) = [] →
    gives (.faultDispTimeout t) s (fun s' => (thr s' (tidTh t)).st = .ready ∧ (thr s' (tidTh t)).g = [] ∧
      (thr s' (tidTh t)).pc = entryOf s (tidTh t) (isSup s (tidTh t)) ∧ (thr s' (tidTh t)).flt = none)) ∧
  (∀ (c : Fin 32) (l : Fin 8192) (ok : Bool) (s : State), let k := c.val * 8192 + l.val
    (mget s.cores.badLine k false = false → becomes (.fetchLineRewrite c l ok) s s) ∧
    (mget s.cores.badLine k false = true → gives (.fetchLineRewrite c l ok) s (fun t => mget t.cores.badLine k false = !ok ∧
      (∀ j, j ≠ k → mget t.cores.badLine j false = mget s.cores.badLine j false) ∧ t.cores.istore = s.cores.istore ∧
      t.cores.thr = s.cores.thr))) ∧
  (∀ (n : Fin 4) (s : State) (c : Nat), (coreRec s (128 + n.val)).src = some c → (coreRec s (128 + n.val)).spareActive = false →
    (coreRec s (128 + n.val)).retired = false → running s 18 0 = true → gives (.spareJoin n []) s (fun t =>
      (coreRec t (128 + n.val)).spareActive = true ∧ (coreRec t (128 + n.val)).src = none ∧
      (∀ a, a < 131072 → cmByte t (128 + n.val) a = cmByte s c a ∧ cmTag t (128 + n.val) a = cmTag s c a) ∧
      ∀ k, k < 8 → let x := thr t (tidOf (128 + n.val) k)
        x.st = .off ∨ x.st = .bound ∨ x.st = .ready ∧ isSup t (tidOf (128 + n.val) k) = true))

/-- R208 to R211, R213: the debugger stops, steps and resumes threads and reads and writes their registers; without a session that
admits it every command ends in DENIED. -/
def Obligations.Debugger : Prop :=
  (∀ (r : Req) (sc : Fin 3) (c : Fin 256) (k : Fin 8) (x : Fin 256) (s : State) (i : Nat) (ts : List Nat),
    mayWrite r 0x2807804 s → dbgScope s sc.val c.val k.val x.val = some (i, ts) → dbgOpen s r i = true →
    gives (.stopHold r sc c k x) s (fun t => rv t (reqKey r 0x2807810) = 0 ∧
      (∀ n ∈ ts, (thr s n).st ≠ .off → (thr t n).st = .stopped) ∧
      (rb s 0x280800C 1 = false → (∀ n, n ∉ ts → thr t n = thr s n) ∧ ∀ n ∈ ts, (thr s n).st ≠ .off → (thr s n).st ≠ .stopped →
        thr t n = { thr s n with st := .stopped, back := (thr s n).st, yield := false, stopAt := s.clk.fab, step := 0 }))) ∧
  (∀ (r : Req) (sc : Fin 3) (c : Fin 256) (k : Fin 8) (x : Fin 256) (s : State),
    mayWrite r 0x2807804 s → (dbgScope s sc.val c.val k.val x.val = none ∨
      ∃ i ts, dbgScope s sc.val c.val k.val x.val = some (i, ts) ∧ dbgOpen s r i = false) →
    ∀ cmd, (cmd = .stopHold r sc c k x ∨ cmd = .stopYield r sc c k x ∨ cmd = .debugResume r sc c k x ∨ cmd = .debugStep r sc c k x) →
    gives cmd s (fun t => rv t (reqKey r 0x2807810) = 1 ∧ onlyRegs s t)) ∧
  (∀ (r : Req) (c : Fin 256) (k : Fin 8) (x : Fin 256) (s : State) (i : Nat),
    let n := tidOf c.val k.val
    mayWrite r 0x2807804 s → dbgScope s 0 c.val k.val x.val = some (i, [n]) → dbgOpen s r i = true → rb s 0x280800C 1 = false →
    (∀ m, (thr s n).wait = .lock m → (thr s n).cps = [] → (thr s n).st = .blocked → gives (.stopYield r 0 c k x) s (fun t =>
      rv t (reqKey r 0x2807810) = 0 ∧ thr t n = { thr s n with
        st := .stopped, back := .ready, yield := true, stopAt := s.clk.fab, step := 0, wait := .none } ∧
      ∀ j, j ≠ n → thr t j = thr s j)) ∧
    ((thr s n).wait = .none → (thr s n).cps = [] → (thr s n).st = .ready → gives (.stopYield r 0 c k x) s (fun t =>
      thr t n = { thr s n with st := .stopped, back := .ready, yield := true, stopAt := s.clk.fab, step := 0 })) ∧
    ((thr s n).st = .stopped → (thr s n).reacq = [] → (thr s n).back ≠ .getw →
      gives (.debugResume r 0 c k x) s (fun t => rv t (reqKey r 0x2807810) = 0 ∧ (thr t n).st = (thr s n).back ∧
        (thr t n).pc = (thr s n).pc ∧ (thr t n).g = (thr s n).g ∧ flags (thr t n) = flags (thr s n) ∧
        (thr t n).runAt = (thr s n).runAt + (s.clk.fab - (thr s n).stopAt) ∧ ∀ j, j ≠ n → thr t j = thr s j) ∧
      gives (.debugStep r 0 c k x) s (fun t => rv t (reqKey r 0x2807810) = 0 ∧ (thr t n).st = (thr s n).back ∧
        (thr t n).step = 1 ∧ (thr t n).pc = (thr s n).pc ∧ (thr t n).g = (thr s n).g ∧ ∀ j, j ≠ n → thr t j = thr s j)) ∧
    ((thr s n).st ≠ .stopped → gives (.debugStep r 0 c k x) s (fun t => rv t (reqKey r 0x2807810) = 2 ∧ onlyRegs s t))) ∧
  (∀ (r : Req) (h : Thr) (s : State) (i : Nat),
    let n := tidTh h
    let sel := rf s (reqKey r 0x2807800) 5 0
    let tag := rf s (reqKey r 0x280780C) 3 0
    mayWrite r 0x2807804 s → dbgScope s 0 h.core.val h.thread.val 0 = some (i, [n]) → dbgOpen s r i = true →
    ((thr s n).st = .stopped → gives (.regRead r h) s (fun t => onlyRegs s t ∧ rv t (reqKey r 0x2807810) = 0 ∧
      rv t (reqKey r 0x2807808) = (dbgGet s n sel).v ∧ rv t (reqKey r 0x280780C) = BitVec.ofNat 32 (dbgGet s n sel).tag ∧
      (plainOf s n = false → sel < 16 → tagR (thr s n) sel = tKEY → rv t (reqKey r 0x2807808) = 0))) ∧
    ((thr s n).st ≠ .stopped → gives (.regRead r h) s (fun t => rv t (reqKey r 0x2807810) = 2 ∧ onlyRegs s t) ∧
      gives (.regWrite r h) s (fun t => rv t (reqKey r 0x2807810) = 2 ∧ onlyRegs s t)) ∧
    ((thr s n).st = .stopped → tag = 0 ∨ tag = 1 ∨ tag = 5 ∨ tag = 15 → gives (.regWrite r h) s (fun t =>
      rv t (reqKey r 0x2807810) = 0 ∧ thr t n = dbgPut (plainOf s n) sel (rv s (reqKey r 0x2807808)) tag (thr s n) ∧
      ∀ j, j ≠ n → thr t j = thr s j)) ∧
    ((thr s n).st = .stopped → tag ≠ 0 → tag ≠ 1 → tag ≠ 5 → tag ≠ 15 → gives (.regWrite r h) s (fun t =>
      (blkGet t 18 0).cfgReject = true ∧ onlyRegs s t ∧ rv t (reqKey r 0x2807810) = rv s (reqKey r 0x2807810))))

/-- R292, R297 to R301, R305 to R312: contexts of the shared units are granted, and their commands complete. R318: the key slots of
an instance. -/
def Obligations.CoprocessorCompletions : Prop :=
  (
  (∀ (k : Fin 32) (u : Fin 7) (s : State) (x tid : Nat), (List.range 8).find? (cpxFree s k.val u.val) = some x →
    clkWaiters s k.val u.val = [tid] → (thr s tid).reacq = [] → (thr s tid).st = .blocked → gives (.contextGrant k u) s (fun t =>
      cpxOf t k.val u.val x = { CpxCtx.init with holder := some tid, clkPc := (thr s tid).wnext } ∧ (thr t tid).st = .ready ∧
      (thr t tid).cps = (u.val, x) :: (thr s tid).cps ∧ (thr t tid).z = true ∧ (thr t tid).v = (cpxOf s k.val u.val x).dbg ∧
      mget (thr t tid).g (thr s tid).wrd TV.void = tvInt (BitVec.ofNat 32 x) ∧ ∀ j, j ≠ tid → thr t j = thr s j)) ∧
  (∀ (k : Fin 32) (u : Fin 7) (s : State), (∀ x, x < 8 → cpxFree s k.val u.val x = false) → becomes (.contextGrant k u) s s) ∧
  lands 0 1 (fun x _ => x.n 1 ≤ 127) 0 (fun x s => [(2, tvOf x.plain (keyHandle s x.i (x.n 1)) tKEY)])
    (fun _ s t => t.dram = s.dram ∧ t.regs = s.regs) ∧
  lands 0 4 (fun x s => x.n 5 ≤ 16384 ∧ ∃ b, x.buf s 2 (x.n 3) (x.n 5) = .ok b) 0
    (fun x s => match x.buf s 2 (x.n 3) (x.n 5) with
      | .ok b => intRes 8 (beWords 8 (sha256 (bufRead s b (x.n 3) (x.n 5))))
      | .error _ => []) (fun _ s t => t.dram = s.dram ∧ t.regs = s.regs) ∧
  lands 2 1 (fun x s => 0 < x.n 3 ∧ x.n 3 ≤ 9216 ∧ x.n 4 ≤ 63 ∧ (∃ b, x.buf s 1 (x.n 2) (x.n 3) = .ok b) ∧
      rb s (0x1C08000 + 0x10 * x.n 4) 31 = false) 0 (fun _ _ => [(5, tvInt 0x80000000)])
    (fun x s t => t.dram = s.dram ∧ regsBut [patCnt (x.k % 4) 2] s t) ∧
  lands 3 1 (fun x s => x.n 1 < 2 ^ 18 ∧ 0 < x.n 2 ∧ x.n 2 ≤ 16383 ∧ x.n 3 ≤ 2 ∧ x.n 1 % 65536 < instF s x.i (·.polCount)) 0
    (fun x s => [(4, tvInt (w32 (police (x.n 1 / 65536) (instF s x.i (·.polBase) + x.n 1 % 65536) (x.n 2) (x.n 3) s).1))])
    (fun _ s t => t.dram = s.dram ∧ t.regs = s.regs) ∧
  lands 3 2 (fun x s => (countAddr s x.i (x.n 1)).isSome = true) 0 (fun _ _ => []) (fun x s t =>
    ∀ a, countAddr s x.i (x.n 1) = some a → pairIs t a (Nat.min (2 ^ 64 - 1) (dram64 s a + 1))
      (Nat.min (2 ^ 64 - 1) (dram64 s (a + 8) + x.n 2)) ∧ dramBut a 16 s t) ∧
  lands 3 2 (fun x s => countAddr s x.i (x.n 1) = none) 6 (fun _ _ => []) (fun _ s t => t.dram = s.dram) ∧
  lands 3 3 (fun x s => (countAddr s x.i (x.n 1)).isSome = true) 0 (fun x s =>
    let p := dram64 s ((countAddr s x.i (x.n 1)).getD 0)
    let b := dram64 s ((countAddr s x.i (x.n 1)).getD 0 + 8)
    [(4, tvInt (w32 p)), (5, tvInt (w32 (p / 2 ^ 32))), (6, tvInt (w32 b)), (7, tvInt (w32 (b / 2 ^ 32)))])
    (fun _ s t => t.dram = s.dram) ∧
  lands 3 4 (fun x s => (countAddr s x.i (x.n 1)).isSome = true) 0 (fun x s =>
    let p := dram64 s ((countAddr s x.i (x.n 1)).getD 0)
    let b := dram64 s ((countAddr s x.i (x.n 1)).getD 0 + 8)
    [(4, tvInt (w32 p)), (5, tvInt (w32 (p / 2 ^ 32))), (6, tvInt (w32 b)), (7, tvInt (w32 (b / 2 ^ 32)))])
    (fun x s t => ∀ a, countAddr s x.i (x.n 1) = some a → pairIs t a 0 0 ∧ dramBut a 16 s t) ∧
  lands 4 2 (fun x s => 0 < x.n 7 ∧ x.n 7 ≤ 65536 ∧ x.n 4 = 2 ∧ x.n 6 < 32 ∧
      x.n 6 * 2 ^ 32 + x.n 5 + x.n 7 ≤ instF s x.i (·.dramSize) * 1048576) 0 (fun x _ => [(9, tvInt (x.w 7))])
    (fun x s t => let a := instF s x.i (·.dramBase) * 1048576 + x.n 6 * 2 ^ 32 + x.n 5
      dramBut a (x.n 7) s t ∧ ∀ j, j < x.n 7 → (memRd t.dram 0 (a + j)).toNat = x.n 8 / 2 ^ (8 * (j % 4)) % 256) ∧
  lands 4 1 (fun x s => 0 < x.n 7 ∧ x.n 7 ≤ 65536 ∧ x.n 1 = 2 ∧ x.n 4 = 2 ∧ x.n 3 < 32 ∧ x.n 6 < 32 ∧
      x.n 3 * 2 ^ 32 + x.n 2 + x.n 7 ≤ instF s x.i (·.dramSize) * 1048576 ∧
      x.n 6 * 2 ^ 32 + x.n 5 + x.n 7 ≤ instF s x.i (·.dramSize) * 1048576) 0 (fun x _ => [(9, tvInt (x.w 7))])
    (fun x s t => let b := instF s x.i (·.dramBase) * 1048576
      let a := b + x.n 6 * 2 ^ 32 + x.n 5
      dramBut a (x.n 7) s t ∧ ∀ j, j < x.n 7 → memRd t.dram 0 (a + j) = memRd s.dram 0 (b + x.n 3 * 2 ^ 32 + x.n 2 + j)) ∧
  lands 5 3 (fun x s => x.n 11 / 2 ^ 14 % 4 = 0 ∧ mget s.dsp.dlGen (x.n 11 % 16384) 0 = x.n 11 / 65536 ∧
      ∃ e, mfind s.dsp.dl (x.n 11 % 16384) = some e ∧ e.inst = x.i) 0 (fun _ _ => [])
    (fun x s t => mfind t.dsp.dl (x.n 11 % 16384) = none ∧ ∀ j, j ≠ x.n 11 % 16384 → mfind t.dsp.dl j = mfind s.dsp.dl j) ∧
  (∀ (k : Fin 32) (u : Fin 7) (n : Fin 8) (bad : Bool) (vd : Word) (s : State), (cpxOf s k.val u.val n.val).cmd = none →
    becomes (.commandComplete k u n bad vd) s s) ∧
  (∀ (k : Fin 32) (n : Fin 8) (c : CpxCmd) (s : State), (cpxOf s k.val 0 n.val).cmd = some c → c.code = 1 →
    (cpxOf s k.val 0 n.val).releasing = true → clkWaiters s k.val 0 = [] → gives (.commandComplete k 0 n false 0) s (fun t =>
      cpxOf t k.val 0 n.val = { CpxCtx.init with dbg := (cpxOf s k.val 0 n.val).dbg } ∧ t.cores = s.cores)) ∧
  (∀ (k : Fin 32) (u : Fin 7) (n : Fin 8) (code : Fin 16) (started : Bool) (s : State), ¬(u.val = 1 ∧ code.val = 1) →
    (cpxOf s k.val u.val n.val).holder.isSome = true → (cpxOf s k.val u.val n.val).cmd = none →
    becomes (.commandCancel k u n code started) s (cnt (cpxCnt k.val u.val 1) s))) ∧
  (
  ∀ (r : Req) (i : Fin 32) (n : Fin 128) (big : Bool) (s : State), mayWrite r 0x2C05020 s →
    (∀ v, r = .vf v → reqInst s r = some i.val) →
    let a := i.val * 128 + n.val
    let cleared (t : State) : Prop := ∀ w, w < 8 → rv t (reqKey r (0x2C05000 + 4 * w)) = 0
    (mfind s.cpx.keys a = none → gives (.cryKeyInstall r i n big) s (fun t => rv t (reqKey r 0x2C05024) = 0 ∧ cleared t ∧
      ∃ k, mfind t.cpx.keys a = some k ∧ k.key.length = (if big then 32 else 16) ∧ beVal k.key =
        ((List.range (if big then 8 else 4)).map (fun w => (rv s (reqKey r (0x2C05000 + 4 * w))).toNat * 2 ^ (32 * w))).sum ∧
        ∀ j, j ≠ a → mfind t.cpx.keys j = mfind s.cpx.keys j)) ∧
    (mfind s.cpx.keys a ≠ none →
      gives (.cryKeyInstall r i n big) s (fun t => rv t (reqKey r 0x2C05024) = 2 ∧ cleared t ∧ t.cpx = s.cpx) ∧
      gives (.cryKeyDelete r i n) s (fun t => rv t (reqKey r 0x2C05024) = 0 ∧ cleared t ∧ mfind t.cpx.keys a = none ∧
        keyGen t i.val n.val = keyGen s i.val n.val + 1 ∧ ∀ j, j ≠ a → mfind t.cpx.keys j = mfind s.cpx.keys j)) ∧
    (mfind s.cpx.keys a = none → gives (.cryKeyDelete r i n) s (fun t => rv t (reqKey r 0x2C05024) = 3 ∧ t.cpx = s.cpx)))

/-- R320 to R325, R328: grants of locks, and the steward's commands on locks. R282, R330: the memory controller performs an atomic
operation. -/
def Obligations.LockUnitAndAtomics : Prop :=
  (
  (∀ (n : Word) (s : State) (tid : Nat), anyLock n.toNat = true → (lockOf s n.toNat).holder = none →
    lockWaiters s n.toNat = [tid] → s.lck.stwWait = none → (thr s tid).st = .blocked → s.jnl.rp ≠ .run →
    gives (.lockGrant n) s (fun t => lockOf t n.toNat = { holder := some tid, status := (lockOf s n.toNat).status } ∧
      (thr t tid).st = .ready ∧ (thr t tid).wait = .none ∧ (thr t tid).z = true ∧
      (thr t tid).v = decide ((lockOf s n.toNat).status ≠ 0) ∧ (thr t tid).g = (thr s tid).g ∧
      fallsThrough (thr s tid).wnext (thr s tid) (thr t tid) ∧ (∀ j, j ≠ tid → thr t j = thr s j) ∧
      ∀ j, j ≠ n.toNat → lockOf t j = lockOf s j)) ∧
  (∀ (n : Word) (s : State), (lockOf s n.toNat).holder ≠ none → becomes (.lockGrant n) s s) ∧
  (∀ (s : State), mayWrite .steward 0x3001804 s →
    let n := (rv s (reqKey .steward 0x3001800)).toNat
    let sts (t : State) : Nat := (rv t (reqKey .steward 0x3001808)).toNat
    (stwUp s = true → s.lck.stwWait = none → anyLock n = true →
      ((lockOf s n).holder = none → lockWaiters s n = [] → (lockOf s n).status < 4 → gives (.lckAcquire .steward) s (fun t =>
        lockOf t n = { holder := some stwId, status := (lockOf s n).status } ∧ t.lck.stwWait = none ∧
        sts t = (lockOf s n).status * 16 ∧ t.cores.thr = s.cores.thr)) ∧
      (∀ h, (lockOf s n).holder = some h → h ≠ stwId → gives (.lckAcquire .steward) s (fun t => t.lck.lk = s.lck.lk ∧
        t.lck.stwWait.map (·.1) = some n ∧ sts t = 2 ^ 31 ∧ t.cores.thr = s.cores.thr)) ∧
      ((lockOf s n).holder = some stwId → gives (.lckAcquire .steward) s (fun t => t.lck = s.lck ∧ sts t = 3)) ∧
      ((lockOf s n).holder = some stwId → lockWaiters s n = [] → gives (.lckRelease .steward) s (fun t => sts t = 0 ∧
        lockOf t n = { holder := none, status := 0 } ∧ ∀ j, j ≠ n → lockOf t j = lockOf s j)) ∧
      ((lockOf s n).holder ≠ some stwId → gives (.lckRelease .steward) s (fun t => sts t = 1 ∧ t.lck = s.lck)) ∧
      ((lockOf s n).holder = some stwId → lockWaiters s n = [] → gives (.lckForce .steward) s (fun t => sts t = 0 ∧
        lockOf t n = { holder := none, status := 2 })) ∧
      (∀ h, (lockOf s n).holder = some h → h ≠ stwId → lockWaiters s n = [] → (thr s h).st = .ready → (thr s h).wait = .none →
        (thr s h).pend.length < 8 → gives (.lckForce .steward) s (fun t => sts t = 0 ∧
        lockOf t n = { holder := none, status := 2 } ∧ ∃ ev : Ev, (thr t h).pend = (thr s h).pend ++ [ev] ∧ ev.code = 0x62 ∧
          ev.info = n)) ∧
      ((lockOf s n).holder = none → gives (.lckForce .steward) s (fun t => sts t = 2 ∧ t.lck = s.lck))) ∧
    (stwUp s = false → ∀ c, c = .lckAcquire .steward ∨ c = .lckRelease .steward ∨ c = .lckForce .steward →
      gives c s (fun t => t.ctl.held = s.ctl.held ++ [c] ∧ t.lck = s.lck))) ∧
  (∀ (r : Req) (c : Instr) (s : State), (c = .lckAcquire r ∨ c = .lckRelease r ∨ c = .lckForce r) → ¬mayWrite r 0x3001804 s →
    gives c s (fun t => t.lck = s.lck ∧ onlyRegs s t))) ∧
  (
  ∀ (k : Nat) (s : State) (q : AtomReq), s.lck.atoms[k]? = some q → q.tid ≠ 5000 →
    ((∃ a ∈ s.lck.atoms.take k, a.tid = q.tid ∧ a.dram = q.dram) → ∀ bad, becomes (.atomicPerform k bad) s s) ∧
    ((∀ a ∈ s.lck.atoms.take k, ¬(a.tid = q.tid ∧ a.dram = q.dram)) →
      let mem (x : State) : Mem := if q.dram then x.dram else x.lck.scratch
      let old : Word := BitVec.ofNat 32 (leVal (memRdN (mem s) 0 q.addr 4))
      gives (.atomicPerform k false) s (fun t => t.lck.atoms = s.lck.atoms.eraseIdx k ∧
        mget (thr t q.tid).g q.rd TV.void = tvInt old ∧
        leVal (memRdN (mem t) 0 q.addr 4) = (match q.op with
          | 0 => (old + q.val).toNat
          | 1 => (old &&& q.val).toNat
          | 2 => (old ||| q.val).toNat
          | 3 => q.val.toNat
          | _ => if old = q.cmp then q.val.toNat else old.toNat) ∧
        (∀ j, ¬(q.addr ≤ j ∧ j < q.addr + 4) → memRd (mem t) 0 j = memRd (mem s) 0 j) ∧
        (q.op = 4 → (thr t q.tid).z = decide (old = q.cmp)) ∧ (q.op ≠ 4 → flags (thr t q.tid) = flags (thr s q.tid)) ∧
        ((thr s q.tid).st = .stall → (thr t q.tid).st = .ready) ∧ ∀ j, j ≠ q.tid → thr t j = thr s j) ∧
      gives (.atomicPerform k true) s (fun t => mem t = mem s ∧ (mget (thr t q.tid).g q.rd TV.void).tag = tPOISON ∧
        t.lck.atoms = s.lck.atoms.eraseIdx k)))

/-- R336, R338 to R341, R345: the free store of the buffer pools. -/
def Obligations.BufferPools : Prop :=
  (∀ (s : State) (k q j : Nat) (l : List (Nat × Nat × Nat)), s.bpm.frees = (k, q, j) :: l → active s 21 0 = true →
    (cacheOf (poolOf s k) q).length < 64 → gives .freeApply s (fun t => t.bpm.frees = l ∧
      cacheOf (poolOf t k) q = j :: cacheOf (poolOf s k) q ∧ (poolOf t k).ring = (poolOf s k).ring ∧
      (∀ p, p ≠ q → cacheOf (poolOf t k) p = cacheOf (poolOf s k) p) ∧ ∀ x, x ≠ k → poolOf t x = poolOf s x)) ∧
  (∀ (k : Fin 16) (q : Fin 4) (s : State), running s 21 0 = true → poolValid s k.val = true →
    let p := poolOf s k.val
    let l := cacheOf p q.val
    (l.length < 16 → gives (.cacheRefill k q) s (fun t =>
      (poolOf t k.val).ring = p.ring.drop 32 ∧
      (poolOf t k.val).fresh = p.fresh + min (32 - min 32 p.ring.length) (poolCount s k.val - p.fresh) ∧
      cacheOf (poolOf t k.val) q.val = ((p.ring.take 32) ++ (List.range (min (32 - min 32 p.ring.length)
        (poolCount s k.val - p.fresh))).map (fun j => p.fresh + j)).reverse ++ l ∧
      (∀ x, x ≠ k.val → poolOf t x = poolOf s x) ∧ t.regs = s.regs)) ∧
    (16 ≤ l.length → becomes (.cacheRefill k q) s s) ∧
    (48 < l.length → p.ring.length + 16 ≤ poolCount s k.val → gives (.cacheSpill k q) s (fun t =>
      cacheOf (poolOf t k.val) q.val = l.take (l.length - 16) ∧
      (poolOf t k.val).ring = p.ring ++ (l.drop (l.length - 16)).reverse ∧ (poolOf t k.val).fresh = p.fresh ∧
      ∀ x, x ≠ k.val → poolOf t x = poolOf s x)) ∧
    (l.length ≤ 48 → becomes (.cacheSpill k q) s s)) ∧
  (∀ (r : Req) (k : Fin 16) (v : Word) (s : State) (d : RegDesc), mayWrite r (poolCfg k.val) s → expertDenied s (poolCfg k.val) = false →
    bit v 31 = true → regRow (poolCfg k.val) = some d →
    (poolValid s k.val = false → d.legal v = true → poolPlaced s k.val v = true → gives (.poolEnable r k v) s (fun t =>
      poolOf t k.val = Pool.init ∧ rv t (poolCfg k.val) = d.apply (rv s (poolCfg k.val)) v ∧ regsBut [poolCfg k.val] s t ∧
      (∀ f ∈ t.bpm.frees, f.1 ≠ k.val) ∧ ∀ x, x ≠ k.val → poolOf t x = poolOf s x)) ∧
    ((poolValid s k.val = true ∨ d.legal v = false ∨ poolPlaced s k.val v = false) →
      becomes (.poolEnable r k v) s (cfgReject 21 0 s)))

/-- R349 to R361, R365, R371: the commands of TBL_CMD. -/
def Obligations.TableCommands : Prop :=
  ∀ (r : Req) (n : Fin 256) (pp : Fin 16) (s : State) (g : TgeoRec), mayWrite r 0x3401000 s → n.val < 255 →
    tgeoRec s n.val = some g → g.table = n.val → (∀ i, reqInst s r = some i → i < 32) →
    let res (t : State) : Nat := rf t (reqKey r 0x3401004) 3 0
    let same (s t : State) : Prop := t.tbl.ent = s.tbl.ent ∧ t.tbl.am = s.tbl.am
    (reqFor s r g.inst = false → ∀ c, (c = .tblInsert r n pp ∨ c = .tblUpdate r n pp ∨ c = .tblDelete r n pp ∨
        c = .tblLookup r n pp ∨ c = .amWrite r n pp ∨ c = .amInval r n pp ∨ c = .amRead r n pp) →
      gives c s (fun t => res t = 5 ∧ same s t)) ∧
    (reqFor s r g.inst = true → g.kind = 0 →
      (tblStaged s r g = none → ∀ c, (c = .tblInsert r n pp ∨ c = .tblUpdate r n pp ∨ c = .tblDelete r n pp ∨
        c = .tblLookup r n pp ∨ c = .tblHitread r n pp false) → gives c s (fun t => res t = 6 ∧ same s t)) ∧
      ∀ k, tblStaged s r g = some k →
        let ws := tblWays s g 0 k
        let b := tblBuckets g k
        (∀ e, tblEnt g k (tblRes s r) = some e →
          (ws ≠ [] → gives (.tblInsert r n pp) s (fun t => res t = 2 ∧ same s t)) ∧
          (ws = [] → ∀ w, freeWay s n.val 0 b.1 = some w → gives (.tblInsert r n pp) s (fun t => res t = 0 ∧
            entAt t n.val 0 b.1 w = some e ∧ ∀ j, j ≠ entKey n.val 0 b.1 w → mfind t.tbl.ent j = mfind s.tbl.ent j)) ∧
          (ws = [] → freeWay s n.val 0 b.1 = none → ∀ w, freeWay s n.val 0 b.2 = some w → gives (.tblInsert r n pp) s (fun t =>
            res t = 0 ∧ entAt t n.val 0 b.2 w = some e ∧ ∀ j, j ≠ entKey n.val 0 b.2 w → mfind t.tbl.ent j = mfind s.tbl.ent j)) ∧
          (ws = [] → freeWay s n.val 0 b.1 = none → freeWay s n.val 0 b.2 = none →
            tblPath s g 0 32 b.1 (victimOf s n.val 0 % 4) [b.1] = none → gives (.tblInsert r n pp) s (fun t =>
              res t = 3 ∧ same s t ∧ victimOf t n.val 0 = victimOf s n.val 0 + 1)) ∧
          (ws = [] → gives (.tblUpdate r n pp) s (fun t => res t = 4 ∧ same s t)) ∧
          (ws ≠ [] → gives (.tblUpdate r n pp) s (fun t => res t = 0 ∧ ∀ p ∈ ws, ∀ o, entAt s n.val 0 p.1 p.2 = some o →
            entAt t n.val 0 p.1 p.2 = some { e with hit := o.hit, stale := false }))) ∧
        (ws = [] → gives (.tblDelete r n pp) s (fun t => res t = 4 ∧ same s t) ∧
          gives (.tblHitread r n pp false) s (fun t => res t = 4 ∧ same s t) ∧
          gives (.tblLookup r n pp) s (fun t => res t = 1 ∧ same s t ∧ tblRes t r = missWord)) ∧
        (∀ p l, ws = p :: l →
          gives (.tblDelete r n pp) s (fun t => res t = 0 ∧ tblWays t g 0 k = [] ∧ ∀ j, (∀ q ∈ ws, j ≠ entKey n.val 0 q.1 q.2) →
            mfind t.tbl.ent j = mfind s.tbl.ent j) ∧
          ∀ e, entAt s n.val 0 p.1 p.2 = some e → e.res < 2 ^ 64 →
            gives (.tblLookup r n pp) s (fun t => res t = 0 ∧ tblRes t r = hitWord g e ∧
              (entAt t n.val 0 p.1 p.2).map (·.hit) = some true) ∧
            (l = [] → gives (.tblHitread r n pp true) s (fun t => res t = 0 ∧ rb t (reqKey r 0x3401004) 4 = e.hit ∧
              (entAt t n.val 0 p.1 p.2) = some { e with hit := false })))) ∧
    (reqFor s r g.inst = true → g.kind = 2 → pp.val ≠ 0 → ∀ k, tblStaged s r g = some k →
      gives (.tblDelete r n pp) s (fun t => ∀ p, p < 4 → pp.val.testBit p = true → tblWays t g p k = [])) ∧
    (reqFor s r g.inst = true → g.kind = 1 → ∀ k, amIndex s r g = some k →
      (∀ v m, tblStaged s r g = some v → tblKey g (reqWords s r 0x3401060 10) = some m → gives (.amWrite r n pp) s (fun t =>
        res t = 0 ∧ mfind t.tbl.am k = some { value := v, mask := m, res := tblRes s r } ∧
        ∀ j, j ≠ k → mfind t.tbl.am j = mfind s.tbl.am j)) ∧
      gives (.amInval r n pp) s (fun t => res t = 0 ∧ mfind t.tbl.am k = none ∧
        ∀ j, j ≠ k → mfind t.tbl.am j = mfind s.tbl.am j) ∧
      (∀ e, mfind s.tbl.am k = some e → e.value < 2 ^ (8 * keyBytes g) → e.res < 2 ^ 64 → gives (.amRead r n pp) s (fun t =>
        res t = 0 ∧ rb t (reqKey r 0x3401004) 5 = true ∧ tblRes t r = e.res ∧ tblStaged t r g = some e.value ∧ same s t)) ∧
      (mfind s.tbl.am k = none → gives (.amRead r n pp) s (fun t =>
        res t = 0 ∧ rb t (reqKey r 0x3401004) 5 = false ∧ same s t)))

/-- R364, R366, R367, R372: aging sweeps, the learn filter and learn queues. -/
def Obligations.AgingAndLearning : Prop :=
  (∀ (n : Fin 255) (p : Fin 4) (s : State) (g : TgeoRec), tgeoRec s n.val = some g →
    (g.kind = 2 ∨ g.kind = 0 ∧ p.val = 0) → rb s (0x3408000 + 4 * n.val) 31 = true →
    mfind s.tbl.sweep (swKey n.val p.val) = none → sweepDue s n.val p.val = true → gives (.ageSweepStart n p) s (fun t =>
      mfind t.tbl.sweep (swKey n.val p.val) = some 0 ∧ mfind t.tbl.swept (swKey n.val p.val) = some s.clk.fab ∧
      t.tbl.ent = s.tbl.ent ∧ t.dram = s.dram)) ∧
  (∀ (n : Fin 255) (p : Fin 4) (s : State) (g : TgeoRec) (b : Nat), tgeoRec s n.val = some g → g.table = n.val → g.inst < 32 →
    mfind s.tbl.sweep (swKey n.val p.val) = some b → gives (.sweepVisit n p) s (fun t =>
      (∀ w e, w < 4 → entAt s n.val p.val b w = some e → entAt t n.val p.val b w =
        if g.kind = 0 ∨ e.stat = true then some { e with hit := false }
        else if e.hit = true then some { e with hit := false, stale := false }
        else if e.stale = false then some { e with stale := true } else none) ∧
      (∀ j, (∀ w, w < 4 → j ≠ entKey n.val p.val b w) → mfind t.tbl.ent j = mfind s.tbl.ent j) ∧
      (b + 1 < tblNB g → mfind t.tbl.sweep (swKey n.val p.val) = some (b + 1)))) ∧
  (∀ (p : Fin 4) (s : State), gives (.learnFilterExpire p) s (fun t =>
    filtOf t p.val = (filtOf s p.val).filter (fun f => decide (s.clk.fab < f.made + rf s 0x3808800 15 0 * 1000)) ∧
    (∀ q, q ≠ p.val → filtOf t q = filtOf s q) ∧ t.tbl.ent = s.tbl.ent ∧ t.regs = s.regs ∧ t.dram = s.dram)) ∧
  (∀ (r : Req) (s : State), mayRead r 0x3801404 s →
    let i := rf s (reqKey r 0x3801400) 7 3
    let p := rf s (reqKey r 0x3801400) 1 0
    (reqFor s r i = false → gives (.learnQpop r) s (fun t => t.outs = s.outs ++ [.readData r 0x40000000] ∧ t.tbl = s.tbl ∧ t.dram = s.dram)) ∧
    (reqFor s r i = true → rb s (lrnCfg i p) 30 = true → becomes (.learnQpop r) s (emit (.readData r 0x20000000) s)) ∧
    (reqFor s r i = true → rb s (lrnCfg i p) 30 = false → lrnLen s i p = 0 → becomes (.learnQpop r) s (emit (.readData r 0) s)) ∧
    (reqFor s r i = true → rb s (lrnCfg i p) 30 = false → rb s (lrnCfg i p) 31 = true → lrnLen s i p ≠ 0 →
      gives (.learnQpop r) s (fun t => t.outs = s.outs ++ [.readData r (BitVec.ofNat 32 (2 ^ 31 + (lrnLen s i p - 1)))] ∧
        mget t.tbl.cons (i * 4 + p) 0 = (mget s.tbl.cons (i * 4 + p) 0 + 1) % 2 ^ 17 ∧
        (∀ k, k < 4 → (rv t (reqKey r (0x3801410 + 4 * k))).toNat = leVal (memRdN s.dram 0 (lrnAddr s i p + 64 +
          16 * (mget s.tbl.cons (i * 4 + p) 0 % 2 ^ rf s (lrnCfg i p) 29 25) + 4 * k) 4)) ∧
        dramBut (lrnAddr s i p + 4) 4 s t ∧ t.tbl.ent = s.tbl.ent)))

/-- R373 to R376, R380, R382, R384: packets enter a queue of the traffic manager, wait and leave it. R378, R379, R381, R385 to R387:
shapers, the commit of the traffic manager's registers, and queues that spill to DRAM. -/
def Obligations.TrafficManager : Prop :=
  (
  (∀ (s : State) (c : Nat) (l : List Nat) (p : Pkt), s.port.toTm = c :: l → running s 24 0 = true → pktOf s c = some p → p.inst < 32 →
    p.queue < 65536 →
    let dropped (r : Nat) (t : State) : Prop := pktOf t c = none ∧ t.port.toTm = l ∧ t.tm.qs = s.tm.qs ∧
      rv t (0x3A01400 + 0x40 * p.inst + 4 * (r - 0x50)) = w32 (satAdd 32 (rv s (0x3A01400 + 0x40 * p.inst + 4 * (r - 0x50))).toNat 1)
    let q := p.queue
    (qPath s q = none → gives .tmEnqueue s (dropped 0x53)) ∧
    (qPath s q ≠ none → rf s (0x3A88800 + 0x20 * p.inst) 19 0 < occI s p.inst + p.cells → gives .tmEnqueue s (dropped 0x52)) ∧
    (qPath s q ≠ none → occI s p.inst + p.cells ≤ rf s (0x3A88800 + 0x20 * p.inst) 19 0 →
      rf s (tmQCfg q + 4) 19 0 < occQ s q + p.cells → gives .tmEnqueue s (dropped 0x50)) ∧
    (∀ n, qPort s q = some n → occI s p.inst + p.cells ≤ rf s (0x3A88800 + 0x20 * p.inst) 19 0 →
      occQ s q + p.cells ≤ rf s (tmQCfg q + 4) 19 0 → rf s (tmQCfg q) 31 30 ≠ 1 → rb s (tmQCfg q + 8) 31 = false →
      ((tmQ s q).pkts ≠ [] ∨ rf s (0x3A8800C + 0x10 * n) 15 0 = 0 ∧ (64 ≤ n ∨ (gateOf s n).on = false)) →
      gives .tmEnqueue s (fun t => (tmQ t q).pkts = (tmQ s q).pkts ++ [{ cell := c, place := 0 }] ∧
        pktOf t c = some { p with since := s.clk.fab } ∧ t.port.toTm = l ∧ ∀ j, j ≠ q → tmQ t j = tmQ s j))) ∧
  (∀ (n : Fin 128) (s : State), portOffers s n.val = false → becomes (.portOpportunity n) s s) ∧
  (∀ (n : Fin 128) (s : State), portOffers s n.val = true → (∀ q ∈ portQs s n.val, (tmQ s q).pkts = []) →
    becomes (.portOpportunity n) s (cnt (tmPortCnt n.val 1) s)) ∧
  (∀ (n : Fin 128) (s : State) (u v q cell : Nat) (r : QhieRec), portOffers s n.val = true → u < 65536 → v < 65536 → q < 65536 →
    kids s (nodeKey 3 n.val) = [nodeKey 2 v] → kids s (nodeKey 2 v) = [nodeKey 1 u] → kids s (nodeKey 1 u) = [q] →
    qPath s q = some (u, v, n.val) → qRec s q = some r → r.cls < 8 → (tmQ s q).pkts = [{ cell := cell, place := 0 }] →
    (∀ k, credRate s k = 0) → ((n.val < 64 ∧ portPaused s n.val r.cls = false ∧ (gateOf s n.val).on = false ∧
      (gateOf s n.val).pend = none ∧ edLen s ((pktOf s cell).getD Pkt.init) < 100000000) ∨ 120 ≤ n.val) →
    mget s.port.paused (n.val * 8 + r.cls) 0 = 0 →
    gives (.portOpportunity n) s (fun t => t.port.toEdit = s.port.toEdit ++ [{ cell := cell, port := n.val, cls := r.cls, bytes := [], ptp := none }] ∧
      (tmQ t q).pkts = [] ∧ (∀ j, j ≠ q → tmQ t j = tmQ s j) ∧ t.dsp = s.dsp)) ∧
  (∀ (r : Req) (n : Fin 128) (s : State), mayWrite r (tmPortCmd n.val) s → gives (.tmFlush r n) s (fun t =>
    ∀ q ∈ portQs s n.val, (tmQ t q).pkts = [] ∧ ∀ x ∈ (tmQ s q).pkts, pktOf t x.cell = none))) ∧
  (
  (∀ (k : Fin 8) (x : Fin 65536) (s : State) (d : Nat),
    let key := credKey k.val x.val
    let c := credOf s key
    c.due = some d →
    (s.clk.fab < d → becomes (.shaperEligible k x) s s) ∧
    (d ≤ s.clk.fab → gives (.shaperEligible k x) s (fun t =>
      credOf t key = { cred := min (credBurst s key * 64 * 65536 : Nat)
                                (c.cred + (credRate s key * (s.clk.fab - c.last) * 65536 / 1000000 : Nat)),
                       last := s.clk.fab, due := none } ∧
      (∀ j, j ≠ key → credOf t j = credOf s j) ∧ t.regs = s.regs ∧ t.tm.qs = s.tm.qs))) ∧
  (∀ (s : State), s.tm.next = none → gives .tmCommit s (fun t =>
    (∀ off, 0x3A00000 ≤ off → off < 0x3C00000 → rv t off = rShow s off) ∧ t.tm.qs = s.tm.qs ∧ t.tm.next = none ∧
    (∀ q ∈ mkeys s.tm.qs, q < 65536 → (rf t (tmQCfg q + 4) 19 0 < occQ s q → mget t.tm.overShare q false = true) ∧
      (occQ s q < rf t (tmQCfg q + 4) 19 0 → mget t.tm.overShare q false = false)))) ∧
  (∀ (q : Fin 65536) (s : State) (x : TmPkt) (p : Pkt), (tmQ s q.val).pkts.find? (fun y => y.place == 1) = some x →
    pktOf s x.cell = some p → gives (.spillWriteDone q) s (fun t =>
      pktOf t x.cell = some { p with guar := 0, shared := 0, head := 0, saved := [], copy := true } ∧
      (tmQ t q.val).pkts = (tmQ s q.val).pkts.map (fun y => if y.cell = x.cell then { y with place := 2 } else y))) ∧
  (∀ (q : Fin 65536) (s : State) (h l : List TmPkt) (y : TmPkt) (p : Pkt), (tmQ s q.val).pkts = h ++ y :: l →
    (∀ x ∈ h, x.place = 0 ∨ x.place = 3) → y.place = 2 → pktOf s y.cell = some p →
    (h.map (fun x => pktCells s x.cell)).sum < min (rf s (tmQCfg q.val + 8) 17 0) 512 → (p.cells : Int) ≤ sharedFree s →
    gives (.spillReadback q) s (fun t => pktOf t y.cell = some { p with shared := p.cells } ∧
      t.port.sharedUsed = s.port.sharedUsed + p.cells ∧
      (tmQ t q.val).pkts = (tmQ s q.val).pkts.map (fun x => if x.cell = y.cell then { x with place := 3 } else x))) ∧
  (∀ (q : Fin 65536) (s : State) (x : TmPkt), (tmQ s q.val).pkts.find? (fun y => y.place == 3) = some x →
    gives (.spillReadDone q) s (fun t => t.dsp = s.dsp ∧
      (tmQ t q.val).pkts = (tmQ s q.val).pkts.map (fun y => if y.cell = x.cell then { y with place := 0 } else y))))

/-- R389 to R391, R397: gate lists. -/
def Obligations.Gates : Prop :=
  (∀ (r : Req) (n : Fin 64) (s : State), mayWrite r (tmPortCmd n.val) s →
    let g := gateOf s n.val
    let b := gateBase s n.val
    let cyc := rf s (0x3A8A00C + 0x20 * n.val) 29 0
    let soon := ptpNs s + 2000
    (g.pend ≠ none → becomes (.gateCommit r n) s (tmBusy s)) ∧
    (g.pend = none → soon ≤ b → gives (.gateCommit r n) s (fun t => gateOf t n.val = { g with pend := some b } ∧ t.regs = s.regs)) ∧
    (g.pend = none → b < soon → cyc ≠ 0 → gives (.gateCommit r n) s (fun t => ∃ k, gateOf t n.val = { g with pend := some (b + k * cyc) } ∧
      soon ≤ b + k * cyc ∧ b + k * cyc < soon + cyc ∧ rb t (gateSts n.val) 30 = true)) ∧
    gives (.gateCancel r n) s (fun t => gateOf t n.val = { g with pend := none } ∧ t.regs = s.regs ∧
      ∀ j, j ≠ n.val → gateOf t j = gateOf s j) ∧
    gives (.gateOff r n) s (fun t => gateOf t n.val = { g with pend := none, on := false, open_ := 255 } ∧ t.regs = s.regs ∧
      ∀ j, j ≠ n.val → gateOf t j = gateOf s j)) ∧
  (∀ (n : Fin 64) (s : State),
    let g := gateOf s n.val
    (∀ at_, g.pend = some at_ → ptpNs s < at_ → becomes (.gateTakeover n) s s) ∧
    (∀ at_, g.pend = some at_ → at_ ≤ ptpNs s → gives (.gateTakeover n) s (fun t =>
      let h := gateOf t n.val
      h.bank = 1 - g.bank ∧ h.on = true ∧ h.t0 = at_ ∧ h.cyc = rf s (0x3A8A00C + 0x20 * n.val) 29 0 ∧
      h.len = rf s (0x3A8A010 + 0x20 * n.val) 10 0 ∧ h.pend = none ∧ h.open_ = (gateAt t n.val (ptpNs s)).1 ∧
      rv t (tmPortCnt n.val 5) = w32 (satAdd 32 (rv s (tmPortCnt n.val 5)).toNat 1))) ∧
    (g.on = true → gives (.gateChange n) s (fun t => gateOf t n.val = { g with open_ := (gateAt s n.val (ptpNs s)).1 } ∧
      t.regs = s.regs ∧ ∀ j, j ≠ n.val → gateOf t j = gateOf s j)) ∧
    (g.on = false → becomes (.gateChange n) s s)) ∧
  (∀ (r : Req) (s : State), mayWrite r 0x3A0410C s → gclMay s r = true →
    let n := (gclSel s r).1
    let e := (gclSel s r).2
    let g := gateOf s n
    (g.pend ≠ none → becomes (.gclWrite r) s (tmBusy s)) ∧
    (g.pend = none → g.bank ≤ 1 → gives (.gclWrite r) s (fun t =>
      gclAt t n (1 - g.bank) e = (rf s (reqKey r 0x3A04104) 7 0, rf s (reqKey r 0x3A04108) 29 0) ∧
      ∀ m b k, k < 1024 → b ≤ 1 → (m, b, k) ≠ (n, 1 - g.bank, e) → gclAt t m b k = gclAt s m b k)) ∧
    ∀ (run : Bool), (gclAt s n (if run then g.bank else 1 - g.bank) e).1 < 256 →
      (gclAt s n (if run then g.bank else 1 - g.bank) e).2 < 2 ^ 30 → gives (.gclRead r run) s (fun t => onlyRegs s t ∧
        (rv t (reqKey r 0x3A04104)).toNat = (gclAt s n (if run then g.bank else 1 - g.bank) e).1 ∧
        (rv t (reqKey r 0x3A04108)).toNat = (gclAt s n (if run then g.bank else 1 - g.bank) e).2))

/-- R401 to R408, R415: requests to DRAM, the commands the scheduler issues for them, and their answers. -/
def Obligations.DramRequests : Prop :=
  (∀ (p : Fin 10) (i : Fin 32) (a : Nat) (len : Fin 65536) (data : Option (List Byte)) (s : State),
    let n := match data with
      | some bs => bs.length
      | none => len.val
    let inst := if p.val = 9 then 0 else i.val
    let r : DReq := 
      { seq := s.dmc.seq, port := p.val, inst := inst, addr := a, len := n, data := data, at_ := s.clk.fab, issued := false, held := false }
    let sc := (dramMap s a).1
    running s 27 0 = true → 0 < chCount s → 0 < n → n ≤ 64 - a % 64 →
    (dramRegion s r = true → scHolds s sc = false → (dsub s sc).q = [] →
      (data = none → gives (.dramRequest p i a len data) s (fun t => (dsub t sc).q = [r] ∧ t.dram = s.dram ∧
        mget t.dmc.outr p.val [] = mget s.dmc.outr p.val [] ++ [{ seq := r.seq, known := false, sts := 0, bytes := [] }])) ∧
      (∀ bs, data = some bs → scFailed s sc = false → (dsub s sc).wq.length < 64 →
        gives (.dramRequest p i a len data) s (fun t => (dsub t sc).wq = (dsub s sc).wq ++ [r] ∧ (dsub t sc).q = [] ∧
          memRdN t.dram 0 a bs.length = bs ∧ dramBut a bs.length s t))) ∧
    (dramRegion s r = false →
      (data = none → mget s.dmc.outr p.val [] = [] → gives (.dramRequest p i a len data) s (fun t => t.dmc.sub = s.dmc.sub ∧
        t.dram = s.dram ∧ mget t.dmc.back p.val [] = mget s.dmc.back p.val [] ++
          [{ seq := r.seq, known := true, sts := 2, bytes := List.replicate n 0 }])) ∧
      (∀ bs, data = some bs → gives (.dramRequest p i a len data) s (fun t => t.dmc.sub = s.dmc.sub ∧ t.dram = s.dram)))) ∧
  (∀ (sc : Fin 16) (bad : Bool) (s : State) (r : DReq),
    let d := dsub s sc.val
    let key := (dramMap s r.addr).2.1
    let row := (dramMap s r.addr).2.2
    active s 27 0 = true → scPresent s sc.val = true → d.alert = 0 → d.slice = false → scFailed s sc.val = false →
    chLevel s (sc.val / 2) ≠ 2 → d.refDue = [] → rfmBank s d = none → d.thro = [] →
    (d.q = [r] ∧ d.wq = [] ∧ r.data = none ∧ r.issued = false ∨ d.q = [] ∧ d.wq = [r] ∧ r.data.isSome = true) →
    (mfind d.banks key = none → gives (.dramCommandIssue sc [] bad) s (fun t =>
      mfind (dsub t sc.val).banks key = some { row := row, last := s.clk.fab } ∧ (dsub t sc.val).q = d.q ∧ (dsub t sc.val).wq = d.wq ∧
      mget (dsub t sc.val).raa key 0 = mget d.raa key 0 + 1)) ∧
    (∀ b, mfind d.banks key = some b → b.row ≠ row → gives (.dramCommandIssue sc [] bad) s (fun t =>
      mfind (dsub t sc.val).banks key = none ∧ (dsub t sc.val).q = d.q ∧ (dsub t sc.val).wq = d.wq)) ∧
    (∀ b, mfind d.banks key = some b → b.row = row → gives (.dramCommandIssue sc [] bad) s (fun t =>
      (dsub t sc.val).wq = [] ∧ (r.data = none → (dsub t sc.val).q = [{ r with issued := true }]) ∧ t.dram = s.dram ∧
      (rf s 0x3E08040 15 0 = 0 → mfind (dsub t sc.val).banks key = none)))) ∧
  (∀ (sc : Fin 16) (s : State) (r : DReq),
    let d := dsub s sc.val
    active s 27 0 = true → d.q = [r] → r.data = none → r.issued = true → d.wq = [] → d.rwin = [] → scFailed s sc.val = false →
    mget s.dmc.outr r.port [] = [{ seq := r.seq, known := false, sts := 0, bytes := [] }] →
    mget s.dmc.bad (r.addr / 64) false = false → ∀ (err : Fin 4),
    gives (.dramRequestComplete sc r.seq err) s (fun t => (dsub t sc.val).q = [] ∧ mget t.dmc.outr r.port [] = [] ∧
      t.dram = s.dram ∧ mget t.dmc.back r.port [] = mget s.dmc.back r.port [] ++
        [{ seq := r.seq, known := true, sts := if err.val = 3 then 1 else 0, bytes := memRdN s.dram 0 r.addr r.len }]))

/-- R406, R409 to R411, R416 to R418: refresh, row trackers, idle pages, calibration and retraining slices. R400, R412, R413, R419
to R422: alerts on the command bus, levels of a channel and training. -/
def Obligations.DramUpkeep : Prop :=
  (
  (∀ (sc : Fin 16) (k : Fin 2) (s : State), active s 27 0 = true → scPresent s sc.val = true → chLevel s (sc.val / 2) < 2 →
    gives (.refreshDue sc k) s (fun t =>
      mget (dsub t sc.val).refDue k.val 0 = mget (dsub s sc.val).refDue k.val 0 + 1 ∧ (∀ j, j ≠ sc.val → dsub t j = dsub s j)) ∧
    (∀ fast, gives (.mr4Poll sc k fast) s (fun t => mget (dsub t sc.val).half k.val false = fast ∧ t.regs = s.regs ∧
      ∀ j, j ≠ sc.val → dsub t j = dsub s j)) ∧
    (∀ dev up, gives (.zqCal sc k dev (some up)) s (fun t => mget (dsub t sc.val).dqs (k.val * 32 + dev.val) 0 =
      mget (dsub s sc.val).dqs (k.val * 32 + dev.val) 0 + (if up then 1 else -1))) ∧
    (∀ dev, becomes (.zqCal sc k dev none) s s)) ∧
  (∀ (sc : Fin 16) (s : State),
    let d := dsub s sc.val
    (∀ r n, active s 27 0 = true → scPresent s sc.val = true → d.alert = 0 → d.slice = false → scFailed s sc.val = false →
      chLevel s (sc.val / 2) ≠ 2 → d.refDue = [(r, n)] → 4 < n → ∀ late bad, gives (.dramCommandIssue sc late bad) s (fun t =>
        mget (dsub t sc.val).refDue r 0 = n - 1 ∧ (∀ b, b / 32 = r → mfind (dsub t sc.val).banks b = none) ∧
        (dsub t sc.val).q = d.q ∧ (dsub t sc.val).wq = d.wq)) ∧
    (active s 27 0 = true → scPresent s sc.val = true → d.winAt + rhWindow d ≤ s.clk.fab → gives (.rhWindowEnd sc) s (fun t =>
      (dsub t sc.val).trk = [] ∧ (dsub t sc.val).winAt = s.clk.fab ∧ (dsub t sc.val).q = d.q ∧
      ∀ j, j ≠ sc.val → dsub t j = dsub s j)) ∧
    (∀ (b : Fin 64) (x : DBank), mfind d.banks b.val = some x → active s 27 0 = true → d.alert = 0 →
      x.last + rf s 0x3E08040 15 0 ≤ s.clk.fab → gives (.pageIdleClose sc b) s (fun t =>
        mfind (dsub t sc.val).banks b.val = none ∧ (∀ j, j ≠ b.val → mfind (dsub t sc.val).banks j = mfind d.banks j) ∧
        (dsub t sc.val).q = d.q ∧ t.regs = s.regs)) ∧
    (∀ use : Fin 101, sliceDue s sc.val 0 = true → d.q = [] → d.wq = [] → use.val ≤ 50 → gives (.centringSlice sc use) s (fun t =>
      (dsub t sc.val).slice = true ∧ (dsub t sc.val).slices = d.slices + 1 ∧ scHolds t sc.val = true)) ∧
    (∀ use : Fin 101, 50 < use.val → becomes (.centringSlice sc use) s s) ∧
    (sliceDue s sc.val (rf s 0x3E0804C 15 10 * 1000000) = true → gives (.forcedSlice sc) s (fun t =>
      (dsub t sc.val).slice = true ∧ (dsub t sc.val).slices = d.slices + 1 ∧ (dsub t sc.val).q = d.q ∧ (dsub t sc.val).wq = d.wq)) ∧
    (∀ last, d.slice = true → d.q = [] → d.hold = [] → d.bp = [] → gives (.centringSliceEnd sc last) s (fun t =>
      (dsub t sc.val).slice = false ∧ (dsub t sc.val).sliceEnd = s.clk.fab ∧
      (last = true → (dsub t sc.val).slices = 0 ∧ (dsub t sc.val).cenAt = d.cenAt + rf s 0x3E0804C 31 16 * 1000000) ∧
      (last = false → d.slices < 256 → (dsub t sc.val).slices = d.slices ∧ (dsub t sc.val).cenAt = d.cenAt))))) ∧
  (
  (∀ (sc : Fin 16) (n : Fin 33) (s : State),
    let d := dsub s sc.val
    (active s 27 0 = true → scPresent s sc.val = true → chLevel s (sc.val / 2) ≠ 2 → d.alert ≠ 2 → scFailed s sc.val = false →
      gives (.caParityAlert sc n) s (fun t => (dsub t sc.val).alert = (if 2 ≤ d.alerts then 2 else 1) ∧
        (dsub t sc.val).alerts = d.alerts + 1 ∧ (dsub t sc.val).q = d.q ∧ (dsub t sc.val).wq = d.wq ∧ t.dram = s.dram)) ∧
    (d.alert = 1 → active s 27 0 = true → gives (.caReplay sc) s (fun t => (dsub t sc.val).alert = 0 ∧ (dsub t sc.val).alerts = 0 ∧
      (dsub t sc.val).rwin = [] ∧ (dsub t sc.val).q = d.q ∧ t.dram = s.dram)) ∧
    (d.alert = 2 → active s 27 0 = true →
      gives (.caRetrainDone sc true) s (fun t => (dsub t sc.val).alert = 0 ∧ (dsub t sc.val).alerts = 0 ∧ (dsub t sc.val).rwin = []) ∧
      gives (.caRetrainDone sc false) s (fun t => (dsub t sc.val).alert = 0 ∧ scFailed t sc.val = true ∧ (dsub t sc.val).wq = [] ∧
        t.dram = s.dram))) ∧
  (∀ (r : Req) (c : Fin 8) (s : State), mayWrite r (0x3E03000 + 4 * c.val) s →
    let lvl (l : Nat) (t : State) : Prop := chLevel t c.val = 3 ∧ mfind t.dmc.lvl c.val = some l ∧ t.dmc.sub = s.dmc.sub
    (rb s (chSts c.val) 30 = true → chLevel s c.val = 0 → gives (.dmcFreq r c) s (lvl 1) ∧ gives (.dmcEnter2 r c) s (lvl 2) ∧
      becomes (.dmcExit r c) s s) ∧
    (rb s (chSts c.val) 30 = true → chLevel s c.val = 1 → gives (.dmcFreq r c) s (lvl 0) ∧
      becomes (.dmcEnter2 r c) s (cfgReject 27 0 s)) ∧
    (chLevel s c.val = 2 → gives (.dmcExit r c) s (lvl 0) ∧ becomes (.dmcFreq r c) s (cfgReject 27 0 s)) ∧
    (chLevel s c.val = 3 → becomes (.dmcFreq r c) s (cfgReject 27 0 s) ∧ becomes (.dmcEnter2 r c) s (cfgReject 27 0 s) ∧
      becomes (.dmcExit r c) s (cfgReject 27 0 s))) ∧
  (∀ (c : Fin 8) (s : State) (l : Nat), mfind s.dmc.lvl c.val = some l → l < 3 → active s 27 0 = true →
    (∀ k, k = 2 * c.val ∨ k = 2 * c.val + 1 → (dsub s k).q = [] ∧ (dsub s k).wq = [] ∧ (dsub s k).hold = [] ∧ (dsub s k).bp = []) →
    gives (.levelChangeDone c) s (fun t => chLevel t c.val = l ∧ mfind t.dmc.lvl c.val = none ∧ (dsub t (2 * c.val)).banks = [] ∧
      (dsub t (2 * c.val + 1)).banks = [] ∧ t.dram = s.dram)) ∧
  (∀ (c : Fin 8) (s : State), ((dsub s (2 * c.val)).q ≠ [] ∨ (dsub s (2 * c.val + 1)).wq ≠ []) → becomes (.levelChangeDone c) s s) ∧
  (∀ (pop : Fin 256) (code : Fin 4) (imt mmt n : Nat) (s : State), s.boot.phase ≠ 0 → s.boot.trained = none →
    (popChans pop.val = some n → gives (.dramTrainingDone pop code true none imt mmt) s (fun t => t.boot.trained = some true ∧
      t.dmc.imt = imt ∧ t.dmc.mmt = mmt ∧ (∀ c, c < n → rf t (chSts c) 31 30 = 3 ∧ rf t (chSts c) 3 0 = code.val) ∧
      rv t 0x3E01040 = BitVec.ofNat 32 (dramMiB n code.val - 32))) ∧
    (∀ b, gives (.dramTrainingDone pop code true (some b) imt mmt) s (fun t => t.boot.trained = some false ∧ t.dmc = s.dmc))))

/-- R426 to R430: the host rings. -/
def Obligations.HostRings : Prop :=
  (∀ (r : Req) (f : Fin 33) (k : Fin 32) (v : Fin 131072) (s : State), mayWrite r (0x3F05000 + 0x80 * f.val + 4 * k.val) s →
    let x := ringOf s f.val k.val
    let n := if k.val < 16 then (v.val + 2 ^ 17 - x.dev) % 2 ^ 17 else (x.dev + 2 ^ 17 - v.val) % 2 ^ 17
    (n ≤ 2 ^ rf s (rcfg f.val k.val) 28 24 → gives (.doorbell r f k v) s (fun t => ringOf t f.val k.val = { x with host := v.val } ∧
      t.regs = s.regs ∧ ∀ j, j ≠ f.val * 32 + k.val → mget t.hif.rings j Ring.init = mget s.hif.rings j Ring.init)) ∧
    (2 ^ rf s (rcfg f.val k.val) 28 24 < n → gives (.doorbell r f k v) s (fun t => t.hif = s.hif ∧
      (blkGet t 28 0).cfgReject = true))) ∧
  (∀ (r : Req) (f : Fin 33) (k : Fin 32) (v : Word) (s : State), mayWrite r (rcfg f.val k.val) s →
    expertDenied s (rcfg f.val k.val) = false → rb s (rcfg f.val k.val) 31 = false → rcfgLegal f.val k.val (setBit v 31 true) = true →
    (fnRuns s f.val = true → gives (.ringEnable r f k v) s (fun t => rv t (rcfg f.val k.val) = setBit v 31 true &&& 0x9F3FF9FF ∧
      ringOf t f.val k.val = Ring.init ∧ (blkGet t 28 0).expert = true ∧ regsBut [rcfg f.val k.val] s t)) ∧
    (fnRuns s f.val = false → gives (.ringEnable r f k v) s (fun t => rv t (rcfg f.val k.val) = rv s (rcfg f.val k.val) ∧
      t.hif = s.hif ∧ (blkGet t 28 0).cfgReject = true))) ∧
  (∀ (d2 d3 : Word) (frame : List Byte) (s : State) (f k : Nat), txNext s = some (f, k) → running s 28 0 = true →
    (txDescOk d2 d3 = true → frame.length = bits d2 13 0 → bit d2 16 = false → ∀ (i : Nat), portInst s (64 + f) = some i →
      (∃ c, c < 196608 ∧ pktOf s c = none) →
      let bs := frame ++ List.replicate (60 - frame.length) 0
      s.port.hostUsed + cdiv bs.length 256 ≤ rf s 0x1009100 17 0 →
      gives (.txFetch d2 d3 frame) s (fun t => ∃ cell, pktOf s cell = none ∧
        (pktOf t cell).map (fun q => (q.inst, q.win, q.bytes, q.inPort, q.cells)) = some (i, bs, bs, 64 + f, cdiv bs.length 256) ∧
        mget t.port.toParse (f % 4) [] = mget s.port.toParse (f % 4) [] ++ [cell] ∧
        t.port.hostUsed = s.port.hostUsed + cdiv bs.length 256 ∧
        (ringOf t f k).dev = ((ringOf s f k).dev + 1) % 2 ^ 17 ∧ t.hif.lastFn = f ∧ mget t.hif.lastTx f 7 = k ∧
        (∀ j, j ≠ cell → pktOf t j = pktOf s j))) ∧
    (txDescOk d2 d3 = false → gives (.txFetch d2 d3 frame) s (fun t => (ringOf t f k).err = 1 ∧
      (ringOf t f k).dev = (ringOf s f k).dev ∧ t.port = s.port ∧ t.dsp = s.dsp))) ∧
  (∀ (f : Fin 33) (d : Word × Word × Word × Word) (s : State) (e : EFrame) (l : List EFrame) (p : Pkt),
    txTake s.port.toTx (64 + f.val) = some (e, l) → pktOf s e.cell = some p → running s 28 0 = true →
    let b := 8 + e.cls
    let c := 16 + e.cls
    let cap := 2048 * 2 ^ rf s (rcfg f.val b) 21 20
    ringLive s f.val b = true → ringLive s f.val c = true → ringLen s f.val b ≠ 0 →
    ringLen s f.val c ≠ ringSize s f.val c →
    (d.2.2.1 = 0 → d.2.2.2 = 0 → rb s (rcfg f.val c) 11 = false → gives (.hostRxDeliver f d) s (fun t =>
      t.outs = s.outs ++ [.hostWrite f.val (d.1.toNat + d.2.1.toNat * 2 ^ 32) (e.bytes.take cap),
        .hostWrite f.val (ringAddr s f.val c (ringOf s f.val c).dev 16)
          (wordBytes (rxCompletion p e.bytes.length (decide (cap < e.bytes.length)) (ringOf s f.val b).dev)),
        .hostWrite f.val (reg64 s (rcfg f.val b + 12)) (leBytes 4 (((ringOf s f.val b).dev + 1) % 2 ^ 17)),
        .hostWrite f.val (reg64 s (rcfg f.val c + 12)) (leBytes 4 (((ringOf s f.val c).dev + 1) % 2 ^ 17))] ∧
      pktOf t e.cell = none ∧ t.port.toTx = l ∧ (ringOf t f.val b).dev = ((ringOf s f.val b).dev + 1) % 2 ^ 17 ∧
      (ringOf t f.val c).dev = ((ringOf s f.val c).dev + 1) % 2 ^ 17)) ∧
    (d.2.2.1 ≠ 0 ∨ d.2.2.2 ≠ 0 → gives (.hostRxDeliver f d) s (fun t => (ringOf t f.val b).err = 1 ∧ t.outs = s.outs ∧
      t.port = s.port ∧ t.dsp = s.dsp))) ∧
  (∀ (f : Fin 33) (k : Fin 32) (kind : Fin 4) (s : State), ringLive s f.val k.val = true → running s 28 0 = true →
    gives (.dmaError f k kind) s (fun t => (ringOf t f.val k.val).err = 2 ∧
      (ringOf t f.val k.val).dev = (ringOf s f.val k.val).dev ∧ ringLive t f.val k.val = false ∧
      (∀ j, j ≠ f.val * 32 + k.val → mget t.hif.rings j Ring.init = mget s.hif.rings j Ring.init) ∧
      bit (mget t.hif.aer f.val 0) (aerBit kind.val) = true ∧ t.cores = s.cores ∧ t.dsp = s.dsp)) ∧
  (∀ (f : Fin 33) (k : Fin 32) (s : State), (ringOf s f.val k.val).irqDue = true → running s 28 0 = true →
    (∀ at_, (ringOf s f.val k.val).irqAt = some at_ → at_ + rf s (rcfg f.val k.val) 19 12 * 1000 ≤ s.clk.fab) →
    let v := rf s (rcfg f.val k.val) 8 0
    gives (.interruptRaise f k) s (fun t => (ringOf t f.val k.val).irqDue = false ∧ (ringOf t f.val k.val).irqAt = some s.clk.fab ∧
      (bit (msixWord s f.val (16 * v + 12)) 0 = false → t.outs = s.outs ++ [.msix f.val v]) ∧
      (bit (msixWord s f.val (16 * v + 12)) 0 = true → t.outs = s.outs ∧
        bit (msixWord t f.val (8192 + v / 32 * 4)) (v % 32) = true)))

/-- R423, R424, R440, R441, 19 R505: the functions and the link of PCI Express. -/
def Obligations.PcieFunctions : Prop :=
  (∀ (sp w : Fin 5) (s : State), gives (.pcieLinkUp sp w) s (fun t =>
    rv t 0x3F01000 = BitVec.ofNat 32 (2 ^ 31 + (sp.val + 1) * 2 ^ 24 + 2 ^ w.val * 2 ^ 16) ∧ regsBut [0x3F01000] s t ∧
    (s.boot.phase = 3 → (blkGet t 28 0).st ≠ .reset) ∧ t.insSt = s.insSt ∧ t.hif = s.hif)) ∧
  (∀ (n : Fin 33) (s : State), (rb s 0x3F01004 31 = false ∨ rf s 0x3F01004 5 0 ≤ n.val) →
    becomes (.vfEnable n) s (rset s 0x3F01004 (BitVec.ofNat 32 (2 ^ 31 + n.val)))) ∧
  (∀ (en : Bool) (n : Fin 33) (s : State), rb s 0x3F01004 31 = true → (en = false ∨ n.val < rf s 0x3F01004 5 0) →
    gives (.vfDisable en n) s (fun t => rb t 0x3F01004 31 = en ∧ (en = true → rf t 0x3F01004 5 0 = n.val) ∧
      (∀ q ∈ s.img.inst, q.vf ≠ 0 → q.vf ≤ rf s 0x3F01004 5 0 → (en = true → n.val < q.vf) → insState s q.inst = .run →
        insState t q.inst = .resetting) ∧
      (∀ i, (∀ q ∈ s.img.inst, q.inst = i → q.vf = 0 ∨ en = true ∧ q.vf ≤ n.val) → insState t i = insState s i))) ∧
  (∀ (f : Fin 33) (s : State) (i : Nat), f.val ≠ 0 → portInst s (64 + f.val) = some i → insState s i = .run →
    gives (.flr f) s (fun t => insState t i = .resetting ∧ mget t.hif.aer f.val 0 = 0 ∧ rb t (insSts i) 28 = true ∧
      mget t.ctl.after i 0 = (if rb s (0x3F88000 + 4 * i) 0 then 2 else 0) ∧
      (∀ c k, c < 132 → k < 8 → coreInst s c = some i → thr t (tidOf c k) = Thread.init) ∧
      ∀ j, j ≠ i → insState t j = insState s j)) ∧
  (∀ (s : State), gives (.flr 0) s (fun t => rb t 0x3F01004 31 = false ∧ mget t.hif.aer 0 0 = 0)) ∧
  (∀ (s : State), s.load.phase ≠ 1 → gives .pcieReset s (fun t => (∀ o, 0x3F00000 ≤ o → o < 0x3F80000 → rv t o = resetWordAt o) ∧
    t.hif.rings = [] ∧ t.hif.aer = [] ∧ t.hif.msix = [] ∧ (blkGet t 28 0).st = .reset ∧ t.insSt = s.insSt ∧ t.cores = s.cores ∧
    t.dsp = s.dsp)) ∧
  (∀ (s : State), s.load.phase = 1 → gives .pcieReset s (fun t => t.load = Load.init ∧
    rv t 0x481010 = BitVec.ofNat 32 (2 ^ 30 + 2 ^ 28 + 2 ^ 24) ∧ t.insSt = s.insSt ∧ t.cores = s.cores))

/-- R431 to R436, 19 R513: the commands of the INS block, the ends of CREATE and of a reset, and host events. -/
def Obligations.InstanceCommands : Prop :=
  (∀ (r : Req) (i : Fin 32) (s : State), mayWrite r 0x3F81000 s →
    let sts := reqKey r 0x3F81004
    (stwUp s = true → s.ctl.cur = none → s.load.phase = 0 →
      (insState s i.val = .absent → (instRec s i.val).isSome = true → insVfOk s i.val = true → gives (.insCreate r i) s (fun t =>
        insState t i.val = .creating ∧ t.ctl.cur = some (reqIdx r, 1, i.val) ∧ rv t sts = 0x80000000)) ∧
      (insState s i.val ≠ .absent → gives (.insCreate r i) s (fun t => t.insSt = s.insSt ∧ rv t sts = 2)) ∧
      (insState s i.val = .absent → instRec s i.val = none → gives (.insCreate r i) s (fun t => t.insSt = s.insSt ∧ rv t sts = 1)) ∧
      (insState s i.val = .reset → insVfOk s i.val = true → gives (.insStart r i) s (fun t => insState t i.val = .run ∧ rv t sts = 0 ∧
        ∀ c k, c ∈ instCores s i.val → k < 8 → (thr t (tidOf c k)).pc = entryOf s (tidOf c k) (isSup s (tidOf c k)) ∧
          (thr t (tidOf c k)).st = (if ownSup s (instF s i.val (·.root)) = some (tidOf c k) then .ready else .bound))) ∧
      (insState s i.val ≠ .reset → gives (.insStart r i) s (fun t => t.insSt = s.insSt ∧ t.cores = s.cores ∧ rv t sts = 2)) ∧
      (insState s i.val = .run → gives (.insReset r i) s (fun t => insState t i.val = .resetting ∧ mget t.ctl.after i.val 0 = 0 ∧
        t.ctl.cur = some (reqIdx r, 3, i.val) ∧ rv t sts = 0x80000000 ∧
        ∀ c k, c < 132 → k < 8 → coreInst s c = some i.val → thr t (tidOf c k) = Thread.init)) ∧
      (insState s i.val = .reset → gives (.insReset r i) s (fun t => t.insSt = s.insSt ∧ rv t sts = 0)) ∧
      (i.val ≠ 0 → insState s i.val = .run → gives (.insRemove r i) s (fun t => insState t i.val = .resetting ∧
        mget t.ctl.after i.val 0 = 1 ∧ t.ctl.cur = some (reqIdx r, 4, i.val) ∧ rv t sts = 0x80000000)) ∧
      (i.val ≠ 0 → insState s i.val = .reset → gives (.insRemove r i) s (fun t => insState t i.val = .absent ∧ rv t sts = 0)) ∧
      (i.val = 0 → insState s i.val = .run → gives (.insRemove r i) s (fun t => t.insSt = s.insSt ∧ rv t sts = 5))) ∧
    (stwUp s = true → s.ctl.cur.isSome = true → gives (.insStart r i) s (fun t => t.insSt = s.insSt ∧ rv t sts = 4)) ∧
    (stwUp s = false → gives (.insCreate r i) s (fun t => t.insSt = s.insSt ∧ t.ctl.held = s.ctl.held ++ [.insCreate r i]))) ∧
  (∀ (i : Fin 32) (s : State), i.val ≠ 0 → insState s i.val = .creating → gives (.createDone i) s (fun t => insState t i.val = .reset ∧
    (∀ q o, s.ctl.cur = some (q, o, i.val) → q < 35 → t.ctl.cur = none ∧ rv t (0x3F81004 + 67108864 * q) = 0) ∧
    (∀ a, instF s i.val (·.dramBase) * 1048576 ≤ a → a < (instF s i.val (·.dramBase) + instF s i.val (·.dramSize)) * 1048576 →
      memRd t.dram 0 a = 0) ∧
    (∀ c a, c < 132 → a < 131072 → coreInst s c = some i.val → cmByte t c a = 0))) ∧
  (∀ (i : Fin 32) (s : State), i.val ≠ 0 → insState s i.val = .resetting → mget s.ctl.after i.val 0 = 0 →
    gives (.instanceResetDone i) s (fun t => insState t i.val = .reset ∧ rb t (insSts i.val) 28 = false ∧
      (∀ p ∈ t.cpx.keys, p.1 / 128 ≠ i.val) ∧ (∀ p ∈ t.cpx.ctx, clusterInst s (p.1 / 64) ≠ some i.val))) ∧
  (∀ (r : Req) (inst : Fin 32) (x : Fin 256) (s : State) (p : PosyRec) (u : Nat), mayWrite r 0x3F81300 s → stwUp s = true →
    posyRec s x.val = some p → (∀ v, r = .vf v → reqInst s r = some p.inst) →
    ((∀ v, r ≠ .vf v) → p.inst = inst.val) → supOf s x.val = some u → (thr s u).st ≠ .getw →
    ((thr s u).evq.length < 16 → (thr s u).fq = [] → gives (.hostEvent r inst x) s (fun t => rv t (reqKey r 0x3F81308) = 0 ∧
      (thr t u).evq = (thr s u).evq ++ [{ code := 0x69, posy := x.val, core := 0, thread := 0, pc := 0,
                                          info := (rv s (reqKey r 0x3F81304)).toNat, info2 := 0 }] ∧
      ∀ k, k ≠ u → thr t k = thr s k)) ∧
    (16 ≤ (thr s u).evq.length → gives (.hostEvent r inst x) s (fun t => rv t (reqKey r 0x3F81308) = 2 ∧
      (thr t u).evq = (thr s u).evq ∧ (thr t u).ovf = true)))

/-- R438, R439, 10 R304: Function Abort of the rings of a function, of a posy, of a coprocessor context and of a learn queue. -/
def Obligations.FunctionAborts : Prop :=
  (∀ (r : Req) (s : State) (i : Nat), mayWrite r 0x3F81200 s → stwUp s = true → cmdBusy r 0x3F81200 s = false →
    mhas s.ctl.fab (reqIdx r) = false → (∀ v, r = .vf v → reqInst s r = some i) → insState s i = .run →
    let sts := reqKey r 0x3F81204
    (∀ (f : Fin 33), portInst s (64 + f.val) = some i → gives (.fabortDma r f) s (fun t => rb t sts 31 = true ∧ rf t sts 27 26 = 0 ∧
      mhas t.ctl.fab (reqIdx r) = true ∧ ∀ k, k < 32 → ringLive s f.val k = true → (ringOf t f.val k).err = 3 ∧
        (ringOf t f.val k).dev = (ringOf s f.val k).dev)) ∧
    (∀ (x : Fin 256) (p : PosyRec), posyRec s x.val = some p → p.inst = i → gives (.fabortPosy r x) s (fun t => rb t sts 31 = true ∧
      rf t sts 27 26 = 1 ∧ mhas t.ctl.fab (reqIdx r) = true)) ∧
    (∀ (k : Fin 32) (u x : Fin 8), u.val < 7 → (unitsOf s k.val).testBit u.val = true → clusterInst s k.val = some i →
      gives (.fabortContext r k u x) s (fun t => rb t sts 31 = true ∧ rf t sts 27 26 = 2 ∧ mhas t.ctl.fab (reqIdx r) = true ∧
        (cpxOf t k.val u.val x.val).cmd = none)) ∧
    (∀ (j : Fin 32) (p : Fin 4), (instRec s j.val).map (·.inst) = some i → gives (.fabortLearnq r j p) s (fun t => rb t sts 31 = true ∧
      rf t sts 27 26 = 3 ∧ mhas t.ctl.fab (reqIdx r) = true ∧ rb t (lrnCfg j.val p.val) 31 = false ∧
      ∀ e ∈ filtOf t p.val, e.inst ≠ j.val ∧ e ∈ filtOf s p.val))) ∧
  (∀ (r : Req) (f : Fin 33) (s : State) (i : Nat), mayWrite r 0x3F81200 s → stwUp s = true → cmdBusy r 0x3F81200 s = false →
    mhas s.ctl.fab (reqIdx r) = false → portInst s (64 + f.val) = some i → (∀ v, r = .vf v → reqInst s r = some i) →
    insState s i ≠ .run → gives (.fabortDma r f) s (fun t => rv t (reqKey r 0x3F81204) = 0x30000000 ∧ t.hif = s.hif)) ∧
  (∀ (r : Req) (s : State) (x : FabRec), mfind s.ctl.fab (reqIdx r) = some x → x.kind < 4 → x.count < 1048576 →
    gives (.fabortDone r) s (fun t => rv t (reqKey r 0x3F81204) = BitVec.ofNat 32 (x.kind * 2 ^ 26 + x.count) ∧
      mfind t.ctl.fab (reqIdx r) = none ∧ t.cores = s.cores))

/-- 17 R446, R450, R454 to R459, R471: challenges, tokens, sessions, attestation, anti-rollback, fuses and internal scan. -/
def Obligations.SecurityCommands : Prop :=
  (∀ (r : Req) (s : State), mayWrite r 0x281000 s → stwUp s = true → rb s (secSts r) 31 = false →
    gives (.newchal r) s (fun t => rv t (secSts r) = 0 ∧ t.sec = s.sec ∧
      ∀ w, w < 4 → rv t (reqKey r (0x281010 + 4 * w)) = Config.freeWord (s.free + w)) ∧
    gives (.secLock r) s (fun t => rv t (secSts r) = 0 ∧ mfind t.sec.sess (reqIdx r) = none ∧
      ∀ j, j ≠ reqIdx r → mfind t.sec.sess j = mfind s.sec.sess j) ∧
    (∀ k, tokJudge r (tokBytes r s) s = some k → k < 9 → gives (.submit r) s (fun t => rv t (secSts r) = BitVec.ofNat 32 k ∧
      t.sec = s.sec ∧ ∀ w, w < 1072 → rv t (reqKey r (0x282000 + 4 * w)) = resetWordAt (0x282000 + 4 * w))) ∧
    (tokJudge r (tokBytes r s) s = none → tokFuse (tokBytes r s) = false → gives (.submit r) s (fun t => rv t (secSts r) = 0 ∧
      mfind t.sec.sess (reqIdx r) = some ⟨uN (tokBytes r s) 0x3C 2, uN (tokBytes r s) 0x38 4⟩ ∧ rb t 0x28104C 0 = true ∧
      ∀ w, w < 4 → rv t (reqKey r (0x281010 + 4 * w)) = Config.freeWord (s.free + w))) ∧
    (∀ (sc : Bool) (i : Fin 32), (∀ v, r = .vf v → sc = true ∧ reqInst s r = some i.val) → lcState s ≠ 3 →
      gives (.attest r sc i) s (fun t => rv t (secSts r) = 0x80000000 ∧ t.sec.attQ = s.sec.attQ ++
        [⟨reqIdx r, sc, i.val, wordBytes ((List.range 8).map (fun w => rv s (reqKey r (0x281020 + 4 * w))))⟩])) ∧
    (∀ (sc : Bool) (i : Fin 32), lcState s = 3 → gives (.attest r sc i) s (fun t => rv t (secSts r) = 6 ∧ t.sec = s.sec))) ∧
  (∀ (r : Req) (k : Fin 4) (v : Fin 128) (s : State), mayWrite r 0x201500 s → stwUp s = true → rb s (fusSts r) 31 = false →
    v.val ≤ 64 →
    (arbLimit s k.val < v.val → gives (.arbAdvance r k v) s (fun t => rv t (fusSts r) = 1 ∧ t.sec = s.sec)) ∧
    (v.val ≤ arbLimit s k.val → v.val ≤ arbValue s k.val → gives (.arbAdvance r k v) s (fun t => rv t (fusSts r) = 0 ∧ t.sec = s.sec)) ∧
    (v.val ≤ arbLimit s k.val → arbValue s k.val < v.val → s.sec.fuse = none → gives (.arbAdvance r k v) s (fun t =>
      rv t (fusSts r) = 0x80000000 ∧ ∃ o, t.sec.fuse = some o ∧
        ∀ b, b ∈ o.bits ↔ 1344 + 64 * k.val + arbValue s k.val ≤ b ∧ b < 1344 + 64 * k.val + v.val))) ∧
  (∀ (s : State) (o : FuseOp) (r : Req), s.sec.fuse = some o → s.boot.wait = none → o.life = false → (∀ b ∈ o.bits, b < 4096) →
    (o.sts = secSts r ∨ o.sts = fusSts r) →
    gives (.fuseProgramDone true) s (fun t => t.sec.fuse = none ∧ rv t o.sts = 0 ∧ (∀ b ∈ o.bits, fuseBit t b = true) ∧
      ∀ b, b < 4096 → b ∉ o.bits → fuseBit t b = fuseBit s b)) ∧
  (∀ (s : State) (q : AttReq) (l : List AttReq) (ok : Bool), s.sec.attQ = q :: l → stwUp s = true →
    (s.sec.attBlk = none → lmsCur s = none → gives (.attestDone ok) s (fun t => t.sec.attQ = l ∧
      rv t (0x281004 + 67108864 * q.req) = 9)) ∧
    (∀ a, s.sec.attBlk = some a → a.leaf < 1023 → gives (.attestDone ok) s (fun t => t.sec.attQ = l ∧
      t.sec.attBlk = some { a with leaf := a.leaf + 1 } ∧ rv t (0x281004 + 67108864 * q.req) = 0 ∧
      ∃ sig, ∀ w, w < 886 → rv t (0x284000 + 4 * w + 67108864 * q.req) =
        BitVec.ofNat 32 (uN (attBody s q a ++ leBytes 4 3284 ++ sig) (4 * w) 4)))) ∧
  (∀ (r : Req) (s : State), s.boot.phase = 3 → scanOk r s = true → gives (.scanEntry r) s (fun t => t.boot.phase = 5 ∧
    stwUp t = false ∧ t.port.sa = [] ∧ t.cpx.keys = [] ∧ t.sec.sess = [] ∧ t.cores.mem = [] ∧ t.dsp.pkts = [])) ∧
  (∀ (ir : Fin 4) (s : State), gives (.tapInstruction ir) s (fun t => t.regs = s.regs ∧ t.cores = s.cores ∧
    t.ctl.tap = if s.boot.phase = 0 then ir.val else 0))

/-- R82 to R87, 04 R140, 20 R531, R532, 19 R511: the steward's mailbox and the loading of images. -/
def Obligations.ImageLoading : Prop :=
  (∀ (r : Req) (img : List Byte) (s : State), mayWrite r 0x48100C s → rb s 0x481010 31 = false →
    (s.ctl.cur = none → s.load.phase = 0 → gives (.mbLoad r img) s (fun t => rb t 0x481010 31 = true ∧ t.load.phase = 1 ∧
      t.load.bytes = img.take (rf s 0x481008 22 0) ∧ t.load.len = rf s 0x481008 22 0 ∧ t.img = s.img)) ∧
    (s.ctl.cur.isSome = true → gives (.mbLoad r img) s (fun t => rv t 0x481010 = 0x5000000C ∧ rv t 0x481014 = 0 ∧ t.img = s.img)) ∧
    gives (.mbMsg r) s (fun t => rb t 0x481010 31 = true ∧ t.ctl.msg = true ∧
      t.outs = s.outs ++ [.toSteward (wordBytes ((List.range 64).map (fun w => rv s (0x481100 + 4 * w))))])) ∧
  (∀ (r : Req) (s : State), mayWrite r 0x48100C s → rb s 0x481010 31 = true → gives (.mbMsg r) s (fun t => t.outs = s.outs ∧
    t.ctl = s.ctl ∧ (blkGet t 8 0).cfgReject = true)) ∧
  (∀ (res : Byte) (b : List Byte) (s : State), s.ctl.msg = true → stwUp s = true → gives (.stewardReply res b) s (fun t =>
    t.ctl.msg = false ∧ rv t 0x481010 = BitVec.ofNat 32 (2 ^ 30 + 2 ^ 29 + res.toNat) ∧
    ∀ w, w < 64 → rv t (0x481200 + 4 * w) = BitVec.ofNat 32 (leVal (sliceB b (4 * w) 4)))) ∧
  (∀ (fa fb : Option (List Byte × List Byte)) (s : State), s.boot.phase = 3 → s.load.phase = 1 → stwUp s = true →
    gives (.imageCheck false fa fb) s (fun t => rv t 0x481010 = 0x51000000 ∧ t.load = Load.init ∧ t.img = s.img) ∧
    (∀ e, partCheck s s.load.len s.load.bytes = .inl e → e.st < 256 → gives (.imageCheck true fa fb) s (fun t =>
      rv t 0x481010 = BitVec.ofNat 32 (2 ^ 30 + 2 ^ 28 + e.st) ∧
      rv t 0x481014 = BitVec.ofNat 32 (e.ty * 2 ^ 24 + e.ix % 2 ^ 24) ∧ t.load = Load.init ∧ t.img = s.img ∧ t.cores = s.cores)) ∧
    (∀ p, partCheck s s.load.len s.load.bytes = .inr p → 9 ∈ p.types → s.load.kept = false → gives (.imageCheck true fa fb) s (fun t =>
      t.load.phase = 2 ∧ t.load.todo = p.types ∧ t.load.since = s.clk.fab ∧ t.img = s.img))) ∧
  (∀ (fa fb : Option (List Byte × List Byte)) (ok : Bool) (s : State) (k : Nat) (fw img : List Byte) (l : List (Nat × Flash))
    (p : PImg), s.boot.phase = 2 → s.boot.staged = (k, some (fw, img)) :: l → lcState s ≠ 3 → s.boot.trained = some true →
    fusesStop s = false → fullCheck s img = .inr p → s.boot.flash < 2 → gives (.imageCheck ok fa fb) s (fun t => t.boot.phase = 3 ∧
      stwUp t = true ∧ t.img = p.img ∧ insState t 0 = .creating ∧ rb t (0x181004 + 8 * s.boot.flash) 30 = true ∧
      t.sec.digImg = sha256 (signedOf img) ∧ t.sec.digStw = sha256 (signedOf fw))) ∧
  (∀ (s : State), s.load.phase = 2 → s.load.todo = [9] → s.load.kept = false → pgrfReady s = true → loadSettled s = true →
    gives .pgrfCommit s (fun t => t.load.todo = [] ∧ t.load.kept = true ∧ t.load.begun = true ∧
      mhas s.rules.graphs t.rules.graphNow = false)) ∧
  (∀ (s : State), s.load.phase = 2 → 9 ∈ s.load.todo → s.load.kept = false → s.load.since + 100000000 ≤ s.clk.fab →
    gives .pgrfWaitTimeout s (fun t => rv t 0x481010 = 0x5000000B ∧ rv t 0x481014 = 0x09FFFFFF ∧ t.load = Load.init ∧ t.img = s.img)) ∧
  (∀ (c : Fin 128) (s : State), (c.val, false) ∈ s.ctl.moves → (c.val, true) ∉ s.ctl.moves → reshapePoint s c.val = true →
    s.load.todo = [] → gives (.posyReshapePoint c) s (fun t => t.ctl.moves = s.ctl.moves.filter (fun m => m.1 != c.val) ∧
      t.img = s.img ∧ t.cores = s.cores)) ∧
  (∀ (c : Fin 128) (s : State), (c.val, true) ∈ s.ctl.moves → (c.val, false) ∉ s.ctl.moves → reshapePoint s c.val = true →
    s.load.todo = [] → gives (.posyReshapePoint c) s (fun t => t.ctl.moves = s.ctl.moves.filter (fun m => m.1 != c.val) ∧
      t.img.posy = s.img.posy.filter (fun r => r.isSet || r.core != c.val) ∧
      ∀ a, a < 131072 → cmByte t (physCore s c.val) a = 0)) ∧
  (∀ (s : State), s.load.phase = 2 → stwUp s = true → s.load.todo = [] → loadSettled s = true → gives .loadComplete s (fun t =>
    rv t 0x481010 = 0x50000000 ∧ rv t 0x481018 = BitVec.ofNat 32 (uN s.load.bytes 16 4) ∧ t.load = Load.init ∧
    t.img.serial = uN s.load.bytes 16 4 ∧ t.sec.digImg = sha256 (s.sec.digImg ++ sha256 (signedOf s.load.bytes))))

/-- 18 R473 to R475, R482 to R489: memory errors, the error collector, the fault log and the MRAM. -/
def Obligations.ErrorCollector : Prop :=
  (∀ (src : Fin 18) (kind : Fin 256) (sev : Fin 4) (u : Fin 16777216) (loc : BitVec 64) (i : Option (Fin 32)) (s : State),
    let c := 0x80 + src.val
    (rb s (ercRec c 0) 31 = false → gives (.errorReport src kind sev u loc i) s (fun t =>
      rv t (ercRec c 0) = BitVec.ofNat 32 (2 ^ 31 + sev.val * 2 ^ 28 + sev.val * 2 ^ 26 + match i with
        | some j => 2 ^ 24 + j.val * 2 ^ 16
        | none => 0) ∧
      rv t (ercRec c 1) = BitVec.ofNat 32 (kind.val * 2 ^ 24 + u.val) ∧ rv t (ercRec c 2) = BitVec.ofNat 32 loc.toNat ∧
      rv t (ercRec c 3) = BitVec.ofNat 32 (loc.toNat / 2 ^ 32) ∧ rv t (ercRec c 4) = BitVec.ofNat 32 s.clk.ns ∧
      rv t (ercRec c 5) = BitVec.ofNat 32 s.clk.sec ∧ rb t (ercPend c) src.val = true ∧
      t.mram.logPend = s.mram.logPend ++ (if sev.val = 0 then [] else
        [(List.range 6).map (fun w => rv t (ercRec c w)) ++ [BitVec.ofNat 32 c]]) ∧
      (sev.val = 3 → t.hb.run = false) ∧ t.cores = s.cores ∧ t.dsp = s.dsp)) ∧
    (rb s (ercRec c 0) 31 = true → sev.val ≤ rf s (ercRec c 0) 27 26 → gives (.errorReport src kind sev u loc i) s (fun t =>
      rf t (ercRec c 0) 15 0 = Nat.min 65535 (rf s (ercRec c 0) 15 0 + 1) ∧ rb t (ercRec c 0) 30 = true ∧
      rf t (ercRec c 0) 29 16 = rf s (ercRec c 0) 29 16 ∧ t.mram = s.mram ∧
      ∀ w, 1 ≤ w → w < 6 → rv t (ercRec c w) = rv s (ercRec c w))) ∧
    (rb s (ercRec c 0) 31 = true → rf s (ercRec c 0) 27 26 < sev.val → gives (.errorReport src kind sev u loc i) s (fun t =>
      rf t (ercRec c 0) 27 26 = sev.val ∧ rf t (ercRec c 0) 29 28 = rf s (ercRec c 0) 29 28 ∧ rb t (ercPend c) src.val = true ∧
      ∀ w, 1 ≤ w → w < 6 → rv t (ercRec c w) = rv s (ercRec c w)))) ∧
  (∀ (r : Req) (j : Fin 2) (v : Word) (s : State), mayWrite r (0x382010 + 4 * j.val) s → gives (.ercAck r j v) s (fun t =>
    ∀ b, b < 32 → (bit v b = true → rb t (ercPend (0x80 + 32 * j.val + b)) b = false ∧
        rb t (ercRec (0x80 + 32 * j.val + b) 0) 31 = false ∧ rf t (ercRec (0x80 + 32 * j.val + b) 0) 15 0 = 0) ∧
      (bit v b = false → rb t (ercPend (0x80 + 32 * j.val + b)) b = rb s (ercPend (0x80 + 32 * j.val + b)) b ∧
        rv t (ercRec (0x80 + 32 * j.val + b) 0) = rv s (ercRec (0x80 + 32 * j.val + b) 0)))) ∧
  (∀ (m : Fin 16) (a : Nat) (s : State), becomes (.scrubVisit m a 0) s s ∧
    gives (.scrubVisit m a 1) s (fun t => rb t (ercRec 0x80 0) 31 = true ∧ t.cores = s.cores ∧ t.dsp = s.dsp ∧ t.tbl = s.tbl ∧
      (rb s (ercRec 0x80 0) 31 = false → rf t (ercRec 0x80 1) 31 24 = 1 ∧ rf t (ercRec 0x80 0) 29 28 = 0 ∧
        rv t (ercRec 0x80 2) = BitVec.ofNat 32 a)) ∧
    (∀ p, pktOf s a = some p → gives (.scrubVisit 2 a 2) s (fun t => pktOf t a = some { p with bad := true } ∧
      rb t (ercRec 0x80 0) 31 = true)) ∧
    gives (.scrubVisit 3 a 2) s (fun t => mfind t.tbl.ent a = none ∧ ∀ j, j ≠ a → mfind t.tbl.ent j = mfind s.tbl.ent j) ∧
    gives (.scrubVisit 1 a 2) s (fun t => mget t.cores.badLine (a / 64) false = true)) ∧
  (∀ (e : Fin 262144) (s : State), becomes (.amCheck e 0) s s ∧
    gives (.amCheck e 1) s (fun t => t.tbl = s.tbl ∧ rb t (ercRec 0x81 0) 31 = true) ∧
    gives (.amCheck e 2) s (fun t => mfind t.tbl.am e.val = none ∧ rb t (ercRec 0x81 0) 31 = true ∧
      ∀ j, j ≠ e.val → mfind t.tbl.am j = mfind s.tbl.am j)) ∧
  (∀ (s : State) (x : List Word) (l : List (List Word)), s.mram.logPend = x :: l → stwUp s = true → gives .faultLogAppend s (fun t =>
    t.mram.logPend = l ∧ mfind t.mram.log s.mram.logNext = some (x ++ [rv s 0x301100]) ∧
    t.mram.logNext = (s.mram.logNext + 1) % 16384 ∧
    ∀ j, j ≠ s.mram.logNext → mfind t.mram.log j = mfind s.mram.log j)) ∧
  (∀ (b : Fin 2048) (s : State), becomes (.mramRotate b false) s s ∧
    (b.val < mramUsed → stwUp s = true → gives (.mramRotate b true) s (fun t => ∃ p, p ∈ mramSpares s ∧ mramPhys t b.val = p ∧
      (∀ q, q ∈ mramSpares s → mget s.mram.writes p 0 ≤ mget s.mram.writes q 0) ∧
      mget t.mram.writes p 0 = mget s.mram.writes p 0 + 1 ∧ ∀ j, j ≠ b.val → mramPhys t j = mramPhys s j)))

/-- 18 R491 to R503: the journal and the replay engine. -/
def Obligations.JournalAndReplay : Prop :=
  (∀ (r : Req) (s : State), mayWrite r 0x401200 s →
    (s.jnl.st = .idle → (blkGet s 7 0).idleReq = false → s.jnl.lostAll = 0 → s.jnl.staged.length + 2 ≤ 32768 →
      gives (.jnlStart r) s (fun t => t.jnl.st = .run ∧ t.jnl.pos = s.jnl.pos + 2 ∧ t.jnl.staged = s.jnl.staged ++
        [(s.jnl.pos, 3 * 2 ^ 62 + 2 ^ 53), (s.jnl.pos + 1, s.clk.fab % 2 ^ 48)] ∧ t.regs = s.regs)) ∧
    gives (.jnlStop r) s (fun t => t.jnl.st = .idle ∧ t.jnl.staged = s.jnl.staged ∧ t.regs = s.regs ∧ t.mram = s.mram) ∧
    (s.jnl.st = .run → rb s 0x408010 3 = true → gives (.jnlTrigger r) s (fun t => t.jnl.st = .post ∧ t.jnl.trigAt = s.clk.fab ∧
      rb t 0x401010 31 = true ∧ rf t 0x401010 3 0 = 3 ∧ t.mram.trigLast = some t.jnl.trigEntry)) ∧
    (s.jnl.st ≠ .run → gives (.jnlTrigger r) s (fun t => t.jnl = s.jnl ∧ t.mram = s.mram ∧
      (rv t (jnlCnt 6)).toNat = Nat.min (2 ^ 32 - 1) ((rv s (jnlCnt 6)).toNat + 1))) ∧
    (s.jnl.st = .frozen → gives (.jnlRearm r) s (fun t => t.jnl.st = .idle ∧ t.regs = s.regs ∧ t.jnl.staged = s.jnl.staged)) ∧
    (s.jnl.st ≠ .frozen → becomes (.jnlRearm r) s s)) ∧
  (∀ (s : State), (s.jnl.st = .run ∨ s.jnl.st = .post) → s.jnl.lostAll = 0 → s.jnl.staged.length + 8 ≤ 32768 →
    gives .timebaseRecord s (fun t => t.jnl.staged = s.jnl.staged ++ ((List.range 4).map (fun p =>
      [(s.jnl.pos + 2 * p, 3 * 2 ^ 62 + 2 ^ 56 + 2 ^ 53), (s.jnl.pos + 2 * p + 1, p * 2 ^ 48 + s.clk.fab % 2 ^ 48)])).flatten ∧
      t.regs = s.regs)) ∧
  (∀ (s : State), s.jnl.st = .post → s.jnl.trigAt + rf s 0x408000 15 0 * 1000 ≤ s.clk.fab → s.jnl.lostAll = 0 →
    s.jnl.staged.length + 1 ≤ 32768 → gives .journalFreeze s (fun t => t.jnl.st = .frozen ∧
      t.jnl.staged = s.jnl.staged ++ [(s.jnl.pos, 3 * 2 ^ 62 + 4 * 2 ^ 56)] ∧
      ∃ e, mfind t.mram.trig s.jnl.trigEntry = some e ∧ (4 ≤ (mget s.mram.trig s.jnl.trigEntry []).length →
        (e.drop 4).take 2 = [BitVec.ofNat 32 (s.jnl.pos % ringWords s), BitVec.ofNat 32 (s.jnl.pos % ringWords s / 2 ^ 32)]))) ∧
  (∀ (r : Req) (s : State), mayWrite r 0x401300 s →
    (s.jnl.rp = .idle → (blkGet s 7 0).idleReq = false → gives (.rpStart r) s (fun t => t.jnl.rp = .run ∧ t.jnl.rpPos = 0 ∧
      t.regs = s.regs ∧ t.dsp = s.dsp)) ∧
    (s.jnl.rp = .paused → gives (.rpContinue r) s (fun t => t.jnl.rp = .run ∧ t.jnl.rpPos = s.jnl.rpPos ∧ t.regs = s.regs)) ∧
    gives (.rpStop r) s (fun t => t.jnl.rp = .idle ∧ t.regs = s.regs ∧ t.dsp = s.dsp)) ∧
  (∀ (s : State), s.jnl.rp = .run →
    let w := rpWord s s.jnl.rpPos
    let c := rpWord s (s.jnl.rpPos + 1)
    let n := nbits c 61 48
    let bs := (((List.range (cdiv n 8)).map (fun j => leBytes 8 (rpWord s (s.jnl.rpPos + 2 + j)))).flatten).take n
    (rpLen s ≤ s.jnl.rpPos → gives .replayInject s (fun t => t.jnl.rp = .done ∧ t.dsp = s.dsp ∧ t.port = s.port)) ∧
    (s.jnl.rpPos < rpLen s → nbits w 63 62 = 0 → rpEmpty s = true → nbits c 63 62 = 2 → nbits w 39 26 = n →
      nbits w 17 2 = (crcR crc32cPoly 0xFFFFFFFF bs ^^^ 0xFFFFFFFF) % 65536 →
      s.port.hostUsed + cdiv n 256 ≤ rf s 0x1009100 17 0 → (∃ c, c < 196608 ∧ pktOf s c = none) →
      gives .replayInject s (fun t => ∃ cell, pktOf s cell = none ∧
        (pktOf t cell).map (fun p => (p.inst, p.bytes, p.inPort, p.jseq)) = some (rpInst s, bs, nbits w 46 40, some (c % 2 ^ 32)) ∧
        mget t.port.toParse (nbits w 61 60) [] = mget s.port.toParse (nbits w 61 60) [] ++ [cell] ∧
        t.jnl.rpPos = s.jnl.rpPos + 1 + recWords c)) ∧
    (s.jnl.rpPos < rpLen s → nbits w 63 62 = 0 → rpEmpty s = true → nbits c 63 62 ≠ 2 →
      gives .replayInject s (fun t => t.jnl.rp = .badScript ∧ t.dsp = s.dsp ∧ t.port = s.port)) ∧
    (s.jnl.rpPos < rpLen s → nbits w 63 62 = 1 → nbits w 37 33 ≠ rpSrc s →
      gives .replayInject s (fun t => t.jnl.rp = .run ∧ t.jnl.rpPos = s.jnl.rpPos + recWords w ∧ t.dsp = s.dsp)))

/-- 19 R505 to R518, 01 R37, 20 R529, R530, 21 R543: resets, the boot, the steward, heartbeats, temperature and rails. -/
def Obligations.DeviceResets : Prop :=
  (∀ (s : State), s.sec.fuse = none →
    let cold (cause : Nat) (t : State) : Prop := t.boot.phase = 0 ∧ rf t 0x181000 19 16 = cause ∧ t.cores = State.reset.cores ∧ t.dram = [] ∧
      t.img = Image.none ∧ t.insSt = [] ∧ t.sec = Sec.init ∧ t.pending = s.pending ∧ (∀ k, k < 8192 → fuseBit t k = fuseBit s k) ∧
      t.mram.log = s.mram.log ∧ t.mram.lms = s.mram.lms
    gives .coldReset s (fun t => cold 0 t ∧ t.boot.hot = false ∧ t.mram.trig = s.mram.trig) ∧ gives (.railLoss true) s (cold 0) ∧ gives (.railLoss false) s (cold 2) ∧
    (∀ l, s.boot.hot1 = true → s.boot.phase ≠ 0 → 155 * 16 ≤ (hottest (l.take 16)).2 → gives (.thermalSample l) s (fun t =>
      cold 1 t ∧ t.boot.hot = true))) ∧
  (∀ (s : State) (l : List (BitVec 16)), l.length = 16 → (hottest l).2 < 155 * 16 → gives (.thermalSample l) s (fun t =>
    t.boot.phase = s.boot.phase ∧ t.boot.hot1 = false ∧ t.boot.hot = (s.boot.hot && decide (140 * 16 ≤ (hottest l).2)) ∧
    (∀ k x, l[k]? = some x → rv t (0x1100 + 4 * k) = BitVec.ofNat 32 (2 ^ 31 + x.toNat)) ∧
    rf t 0x1140 27 24 = (hottest l).1 ∧ t.cores = s.cores)) ∧
  (∀ (st : Fin 16) (fa fb : Option (List Byte × List Byte)) (s : State), s.boot.phase = 0 →
    (s.boot.hot = false → gives (.powerOnBoot st fa fb) s (fun t => (t.boot.phase = 2 ∨ t.boot.phase = 4) ∧
      rv t 0x181040 = BitVec.ofNat 32 st.val ∧ t.clk.fab = 0 ∧ t.img = s.img ∧ (fa = none → fb = none → t.boot.phase = 4))) ∧
    (s.boot.hot = true → becomes (.powerOnBoot st fa fb) s s)) ∧
  (∀ (s : State), s.boot.phase = 3 → s.sec.fuse = none →
    let warm (cause : Nat) (t : State) : Prop := t.boot.phase = 1 ∧ rf t 0x181000 19 16 = cause ∧ rf t 0x181000 31 30 = 0 ∧
      t.insSt = [] ∧ t.img = Image.none ∧ t.sec.sess = [] ∧ t.cores.mem = [] ∧ t.cores.thr = [] ∧ t.pending = s.pending ∧
      (∀ k, k < 8192 → fuseBit t k = fuseBit s k) ∧
      ((∀ c, c < 16 → (dsub s c).wq = [] ∧ (dsub s c).q = [] ∧ (dsub s c).hold = [] ∧ (dsub s c).bp = []) → t.dram = s.dram)
    gives .warmReset s (warm 3) ∧
    (∀ r, mayWrite r 0x181100 s → gives (.rstWarm r) s (warm 4)) ∧
    (∀ d, d.val ≠ 7 → gives (.pllLossOfLock d) s (fun t => warm 5 t ∧ rb t 0x101004 d.val = true)) ∧
    gives (.pllLossOfLock 7) s (fun t => t.boot.phase = 3 ∧ rb t 0x101004 7 = true ∧ t.cores = s.cores) ∧
    (stwUp s = false → gives (.stewardReloadDone none) s (warm 6) ∧
      (∀ b e, fwHead s b = some e → gives (.stewardReloadDone (some b)) s (warm 6)) ∧
      (∀ b, fwHead s b = none → s.load.phase = 0 → s.ctl.stwQ = [] → s.ctl.held = [] → gives (.stewardReloadDone (some b)) s (fun t =>
        stwUp t = true ∧ t.boot.phase = 3 ∧ t.sec.digStw = sha256 (signedOf b) ∧ t.cores = s.cores))) ∧
    (stwUp s = true →
      let fresh (cause : Nat) (t : State) : Prop := stwUp t = false ∧ rf t 0x181000 19 16 = cause ∧ t.boot.phase = 3 ∧ t.sec.sess = [] ∧
        t.sec.attQ = [] ∧ t.img = s.img
      (∀ r, mayWrite r 0x181100 s → gives (.rstSteward r) s (fresh 7)) ∧ gives .lockstepMismatch s (fresh 8) ∧
      gives .stewardReset s (fresh 9))) ∧
  (∀ (s : State), s.boot.phase = 1 → becomes .warmReset s (rsetF s 0x181000 19 16 3)) ∧
  (∀ (s : State) (o : FuseOp), s.boot.phase = 3 → s.sec.fuse = some o → gives .warmReset s (fun t => t.boot.wait = some 3 ∧
    t.boot.phase = 3 ∧ t.regs = s.regs)) ∧
  (∀ (r : Req) (s : State), mayWrite r 0x181104 s → gives (.hbKick r) s (fun t => t.hb.kick = some s.clk.fab ∧ t.regs = s.regs)) ∧
  (∀ (s : State), (healthy s = true → becomes .kickTimeout s s) ∧ (healthy s = false → gives .kickTimeout s (fun t =>
    t.hb.run = false ∧ t.regs = s.regs ∧ t.cores = s.cores))) ∧
  (∀ (s : State) (a : Nat), s.hb.since = some a → healthy s = true → a + 1000000 ≤ s.clk.fab → gives .hbResume s (fun t =>
    t.hb.run = true ∧ t.regs = s.regs))

/-- R195, R199, R213, R228, R235, R236, 01 R49, R50: what a Petal instruction does before its operands are looked at: it does nothing
where its thread is not READY or its core is idle, and raises BOUNDS, ILLEGAL_OP, PRIV and COP_ABSENT in that order; with a false
predicate it commits with no effect. -/
def Obligations.PetalAdmission : Prop :=
  ∀ (i : Instr) (th : Thr) (o : POp) (f : Form) (s : State), petalOf i = some (th, o, f) →
    let unit : Prop := ∀ u, petalUnit o f = some u → (unitsOf s (clusterOf s th.core.val)).testBit u = true
    let legal : Prop := formLegal o f (nextPc o th f s) = true
    let priv : Prop := petalPriv o = true → isSup s (thrNo th) = true
    ((thrOf th s).st ≠ .ready → becomes i s s) ∧
    ((thrOf th s).st = .ready → (thrOf th s).step = 0 → active s 18 0 = false → becomes i s s) ∧
    ((thrOf th s).st = .ready → (thrOf th s).step = 0 → active s 18 0 = true →
      (bkptAt s th.core.val (thrOf th s).pc && !(thrOf th s).bkSkip && dbgHeld s (tinst s (thrNo th))) = false →
      524288 < nextPc o th f s → heldBy i th s 3 (max (thrOf th s).pc 524288) (nextPc o th f s)) ∧
    (fetches o th f s → ¬legal → heldBy i th s 1 0 (nextPc o th f s)) ∧
    (fetches o th f s → legal → ¬priv → heldBy i th s 5 0 (nextPc o th f s)) ∧
    (fetches o th f s → legal → priv → ¬unit → heldBy i th s 7 0 (nextPc o th f s)) ∧
    (fetches o th f s → legal → priv → unit → (f.pred.val = 1 ∨ f.pred.val = 2) → 16 ∈ (thrOf th s).busy →
      gives i s (fun s' => onlyThread th s s' ∧ (thrOf th s').st = .stall ∧ (thrOf th s').pc = (thrOf th s).pc ∧
        (thrOf th s').g = (thrOf th s).g)) ∧
    (fetches o th f s → legal → priv → unit → ((f.pred.val = 1 ∨ f.pred.val = 2) → 16 ∉ (thrOf th s).busy) →
      (predHolds (thrOf th s) f = false → gives i s (fun s' => commits o th f s s' to0 (flags (thrOf th s)))) ∧
      (predHolds (thrOf th s) f = true → petalWaits o s = true → gives i s (fun s' => onlyThread th s s' ∧
        (thrOf th s').st = .ready ∧ (thrOf th s').pc = (thrOf th s).pc ∧ (thrOf th s').g = (thrOf th s).g)))

/-- R199, R218 to R220, R235, R248, R249, 09 R282: POISON_USE, TAG_FAULT, DIV_ZERO, BOUNDS and ALIGN for an operand, and STALL for one
that has not arrived. -/
def Obligations.OperandFaults : Prop :=
  (∀ (th : Thr) (f : Form) (s : State), ∀ p ∈ [((.add : Thr → Form → Instr), POp.add), (.sub, .sub), (.and, .andOp), (.or, .orOp),
      (.xor, .xorOp), (.shl, .shl), (.shr, .shr), (.sar, .sar), (.mul, .mul), (.rol, .rol)],
    fetches p.2 th f s → admitted p.2 th f s →
    (¬arrived th s [f.rs.val, f.rt.val] → gives (p.1 th f) s (fun s' => onlyThread th s s' ∧ (thrOf th s').st = .stall ∧
      (thrOf th s').pc = (thrOf th s).pc ∧ (thrOf th s').g = (thrOf th s).g)) ∧
    (arrived th s [f.rs.val, f.rt.val] → (inRs th s f).tag = tPOISON → isPlain th s = false →
      heldBy (p.1 th f) th s 8 0 (nextPc p.2 th f s)) ∧
    (arrived th s [f.rs.val, f.rt.val] → clean th s [f.rs.val, f.rt.val] → isPlain th s = false → (inRs th s f).tag = tKEY →
      heldBy (p.1 th f) th s 2 0 (nextPc p.2 th f s))) ∧
  (∀ (th : Thr) (f : Form) (s : State), ∀ p ∈ [((.div : Thr → Form → Instr), POp.divOp), (.divu, .divu), (.rem, .rem), (.remu, .remu)],
    fetches p.2 th f s → admitted p.2 th f s → operands th s [f.rd.val, f.rs.val] [f.rd.val] → allInt th s [f.rd.val, f.rs.val] →
    (inRs th s f).v = 0 → heldBy (p.1 th f) th s 0x0C 0 (nextPc p.2 th f s)) ∧
  (∀ (th : Thr) (f : Form) (s : State), fetches .ld th f s → admitted .ld th f s → operands th s [f.rs.val] [f.rd.val] →
    allInt th s [f.rs.val] →
    let e := addrDisp inRs th s f
    ((e < 0 ∨ 0x20000 < e + sizeBytes f) → heldBy (.ld th f) th s 3 (eaInfo e) (nextPc .ld th f s)) ∧
    (0 ≤ e → e + sizeBytes f ≤ 0x20000 → e % sizeBytes f ≠ 0 → heldBy (.ld th f) th s 4 (eaInfo e) (nextPc .ld th f s)))

/-- R238: where an instruction falls through to `next`, the innermost active level whose LE is `next` takes its thread back to LS with one
count less while its count is above 1; else the level is freed, and the rule is applied again to the level outside it, in the same
commit. A taken branch leaves the levels as they are. -/
def Obligations.HardwareLoops : Prop :=
  (∀ (t : Thread) (next m : Nat), m ≤ 4 → m ≤ t.depth →
    (∀ j, j < m → (lvOf t (t.depth - 1 - j)).le = next ∧ (lvOf t (t.depth - 1 - j)).lc.toNat ≤ 1) →
    let l := lvOf t (t.depth - 1 - m)
    ((t.depth = m ∨ l.le ≠ next) → advance next t = { t with pc := next, depth := t.depth - m }) ∧
    (m < 4 → m < t.depth → l.le = next → 1 < l.lc.toNat →
      (advance next t).pc = l.ls ∧ (advance next t).depth = t.depth - m ∧
      lvOf (advance next t) (t.depth - 1 - m) = { l with lc := l.lc - 1 } ∧
      ∀ j, j ≠ t.depth - 1 - m → lvOf (advance next t) j = lvOf t j)) ∧
  (∀ (th : Thr) (f : Form) (s : State), goesAhead .nop th f s → gives (.nop th f []) s (fun s' =>
    fallsThrough (nextPc .nop th f s) (thrOf th s) (thrOf th s'))) ∧
  (∀ (th : Thr) (f : Form) (s : State), goesAhead .br th f s → gives (.br th f) s (fun s' =>
    (thrOf th s').pc = target .br th f s ∧ (thrOf th s').depth = (thrOf th s).depth ∧ (thrOf th s').lv = (thrOf th s).lv))

/-- R490: the thermal histogram. Every second the snapshot adds 1 to the bin of the hottest sensor (in units of 1/16 °C), and the
histogram and the lifetime counters are written to MRAM once an hour and at a warm reset. -/
def Obligations.ThermalHistogram : Prop :=
  (∀ (s : State) (b : Nat), s.boot.phase ≠ 0 →
    let t := (BitVec.ofNat 16 (rf s 0x1140 15 0)).toInt
    (t < -35 * 16 ∧ b = 0 ∨ 1 ≤ b ∧ b ≤ 37 ∧ (-40 + 5 * (b : Int)) * 16 < t ∧ t < (-35 + 5 * (b : Int)) * 16 ∨
      150 * 16 < t ∧ b = 38) →
    let a := 0x301000 + 4 * b
    gives .telemetrySnapshot s (fun u => (rv u a).toNat = Nat.min (2 ^ 32 - 1) ((rv s a).toNat + 1) ∧
      (rv u 0x301100).toNat = Nat.min (2 ^ 32 - 1) ((rv s 0x301100).toNat + 1) ∧ regsBut [a, 0x301100] s u ∧ onlyRegs s u)) ∧
  (∀ (s : State), s.boot.phase ≠ 0 → gives .thistWrite s (fun t =>
    (∀ b, b < 39 → mfind t.mram.thist b = some (rv s (0x301000 + 4 * b))) ∧
    (∀ k, k < 8 → mfind t.mram.life k = some (rv s (0x301100 + 4 * k))) ∧ t.regs = s.regs)) ∧
  (∀ (s : State), s.boot.phase = 3 → s.sec.fuse = none → gives .warmReset s (fun t =>
    (∀ b, b < 39 → mfind t.mram.thist b = some (rv s (0x301000 + 4 * b))) ∧
    (∀ k, k < 8 → k ≠ 2 → k ≠ 5 → mfind t.mram.life k = some (rv s (0x301100 + 4 * k)))))

/-- R516: the mate's heartbeat. With no edge for 4 µs MATE_LOST is set and MATE_ALIVE cleared; 16 consecutive edges, each within 600 ns
of the one before, set MATE_ALIVE. -/
def Obligations.MateHeartbeat : Prop :=
  ∀ (s : State), s.boot.phase ≠ 0 →
    (rb s 0x181040 3 = true → ∀ a, s.hb.edgeAt = some a →
      (s.clk.fab ≤ a + 600 → gives .mateHbEdge s (fun t => t.hb.edgeAt = some s.clk.fab ∧ t.hb.edges = Nat.min 16 (s.hb.edges + 1) ∧
        rb t 0x181000 28 = (rb s 0x181000 28 || decide (15 ≤ s.hb.edges)) ∧ rb t 0x181000 27 = rb s 0x181000 27)) ∧
      (a + 600 < s.clk.fab → gives .mateHbEdge s (fun t => t.hb.edges = 0 ∧ t.hb.edgeAt = some s.clk.fab ∧ t.regs = s.regs)) ∧
      (a + 4000 ≤ s.clk.fab → gives .mateLost s (fun t => rb t 0x181000 27 = true ∧ rb t 0x181000 28 = false ∧
        t.hb.edges = 0 ∧ t.hb.edgeAt = some a)) ∧
      (s.clk.fab < a + 4000 → becomes .mateLost s s)) ∧
    (rb s 0x181040 3 = false → becomes .mateHbEdge s s ∧ becomes .mateLost s s)

/-- The queue: the command at its front runs on the state with the rest (the model's own rule, log entry 1). -/
def Obligations.StepRunsTheFrontCommand : Prop :=
  ∀ (c : Instr) (l : List Instr) (s : State), s.pending = c :: l → step s = exec c { s with pending := l }

/-- With no command waiting one nanosecond passes (08 R258, 03 R108; that it is the empty queue's step is the model's choice, log
entry 1). -/
def Obligations.IdleTick : Prop :=
  (∀ (s : State), s.pending = [] → s.boot.phase = 0 → step s = .next s) ∧
  (∀ (s : State), s.pending = [] → s.boot.phase ≠ 0 → ∃ t, step s = .next t ∧ t.clk.fab = s.clk.fab + 1 ∧ t.cores = s.cores ∧
    t.dsp = s.dsp ∧ t.pending = [] ∧ t.mram = s.mram ∧
    ((blkGet s 11 0).st ≠ .reset → rv s 0xE08000 = 0 → s.clk.ns < 999999999 → s.clk.frac < 2 ^ 40 → t.clk.ns = s.clk.ns + 1 ∧
      t.clk.sec = s.clk.sec % 2 ^ 48 ∧ t.clk.frac = s.clk.frac) ∧
    ((blkGet s 11 0).st ≠ .reset → rv s 0xE08000 = 0 → s.clk.ns = 999999999 → s.clk.frac < 2 ^ 40 → t.clk.ns = 0 ∧
      t.clk.sec = (s.clk.sec + 1) % 2 ^ 48) ∧
    ((blkGet s 11 0).st = .reset → t.clk.sec = s.clk.sec ∧ t.clk.ns = s.clk.ns) ∧
    (active s 27 0 = true → t.jnl.staged = []))

/-- 16 R431, 01 R50, 19 R505, R517, 06 R195, R213, 18 R502, R503, 02 R76, 03 R121: the device right after reset, with some of the reset values
the spec's register tables state, and its memories in canonical form (of the registers and memories whose reset value the spec does not
state, log entries 3 and 4 give the model's). -/
def Obligations.AfterReset : Prop :=
  State.reset.pending = [] ∧ State.reset.boot.phase = 0 ∧ (∀ i, insState State.reset i = .absent) ∧ State.reset.img = Image.none ∧
  (∀ b c, (blkGet State.reset b c).st = .reset) ∧ (∀ n, (thr State.reset n).st = .off) ∧ (∀ off, rv State.reset off = resetWordAt (off % 67108864)) ∧
  (∀ m, m < 64 → rf State.reset (0x800100 + 0x10000 * m) 29 16 = 1522) ∧ rf State.reset 0x188000 9 0 = 100 ∧
  rf State.reset 0x388000 25 24 = 1 ∧ rf State.reset 0x408010 9 8 = 2 ∧ rf State.reset 0x2808008 31 24 = 3 ∧
  rf State.reset 0x2808008 15 0 = 1000 ∧
  Memory.wf State.reset.cores.mem 0 = true ∧ Memory.wf State.reset.cores.istore 0xFE = true ∧
  Memory.wf State.reset.lck.scratch 0 = true ∧ Memory.wf State.reset.bpm.area 0 = true ∧ Memory.wf State.reset.dram 0 = true

/-- R224 to R227, R236: encoding an instruction and decoding its bytes, at any address, with any bytes behind them, gives the instruction
again with every field, and its length. -/
def Obligations.PetalDecodeOfEncode : Prop :=
  ∀ (o : POp) (f : Form) (pc : Nat) (rest : List Byte), f.err = 0 → formLegal o f (pc + formLen o f) = true →
    petalDecode (petalEncode o f ++ rest) pc = some (o, f, formLen o f) ∧ (petalEncode o f).length = formLen o f

/-- 08 (the sequence that reads a TTL) and 09 (the forwarding worker): the bytes the spec's examples write out decode to the
instructions they stand for. -/
def Obligations.PetalWorkedEncodings : Prop :=
  decodesTo [0xE8, 0x11, 0x60, 0x05, 0x01, 0x00, 0x00] 0x0040 .movi { bare 6 0 0 0x0105 with imx := true } ∧
  decodesTo [0x11, 0x70, 0x00] 0x0047 .movi (bare 7 0 0 0) ∧ decodesTo [0x01] 0x004A .getw (bare 0 0 0 0) ∧
  decodesTo [0x62, 0x20, 0x01] 0x004B .hofs (bare 2 0 0 1) ∧ decodesTo [0x50, 0x3E, 0x90, 0x00] 0x004E .ld (bare 3 14 0 0x90) ∧
  decodesTo [0xE4, 0x80, 0x08, 0x00] 0x0052 .br { bare 0 0 0 8 with pred := 1 } ∧ decodesTo [0xA6, 0x56, 0x70] 0x0056 .edadd (bare 5 6 7 0) ∧
  decodesTo [0xA0, 0x03] 0x0059 .send (bare 0 3 0 0) ∧ decodesTo [0x80, 0xEC, 0xFF] 0x005B .br (bare 0 0 0 (-20)) ∧
  decodesTo [0xA2] 0x005E .dropOp (bare 0 0 0 0) ∧ decodesTo [0xE0, 0x60, 0x32, 0x08, 0x00] 0x0207 .hld { bare 3 2 0 8 with size := 1 } ∧
  decodesTo [0x60, 0x42, 0x10, 0x00] 0x020C .hld (bare 4 2 0 16) ∧ decodesTo [0x31, 0x30, 0x01] 0x0210 .cmpi (bare 3 0 0 1) ∧
  decodesTo [0x81, 0x80, 0x79, 0x00] 0x0213 .bcc (bare 8 0 0 0x79)
end

