-- ==== Sys2Proof/Laws/Maps.lean ====
section
/-! SUPPORT. Laws of sparse maps and byte memories: a read after a write, and that every operation keeps the canonical form. -/

namespace Sys2Proof.Machine

variable {V : Type}

theorem mfind_mins (m : List (Nat × V)) (k j : Nat) (v : V) :
    mfind (mins m k v) j = if j = k then some v else mfind m j := by
  induction m with
  | nil => by_cases h : j = k <;> simp_all [mins, mfind, eq_comm]
  | cons p t ih =>
    obtain ⟨a, w⟩ := p
    simp only [mins]
    split
    · by_cases h : j = k <;> simp_all [mfind, eq_comm]
    · split
      · by_cases h : j = k <;> simp_all [mfind, eq_comm]
      · simp only [mfind, ih]
        by_cases h : a = j
        · subst h
          simp_all
        · simp [h]

theorem mfind_mdel (m : List (Nat × V)) (k j : Nat) : mfind (mdel m k) j = if j = k then none else mfind m j := by
  induction m with
  | nil => simp [mdel, mfind]
  | cons p t ih =>
    obtain ⟨a, w⟩ := p
    unfold mdel at *
    simp only [List.filter_cons]
    by_cases ha : a = k <;> by_cases h : j = k <;> by_cases hj : a = j <;> simp_all [mfind]

/-- A lookup after an entry is replaced or removed. -/
theorem mfind_mset (m : List (Nat × V)) (k j : Nat) (o : Option V) : mfind (mset m k o) j = if j = k then o else mfind m j := by
  cases o with
  | none => exact mfind_mdel m k j
  | some v => exact mfind_mins m k j v

@[simp] theorem mfind_mins_self (m : List (Nat × V)) (k : Nat) (v : V) : mfind (mins m k v) k = some v := by
  simp [mfind_mins]

theorem mfind_mins_ne (m : List (Nat × V)) {k j : Nat} (v : V) (h : j ≠ k) : mfind (mins m k v) j = mfind m j := by
  simp [mfind_mins, h]

/-- A read after a write of a map with a default. -/
theorem mget_mput [DecidableEq V] (m : List (Nat × V)) (k j : Nat) (v d : V) :
    mget (mput m k v d) j d = if j = k then v else mget m j d := by
  unfold mget mput
  rw [mfind_mset]
  by_cases h : j = k <;> by_cases hv : v = d <;> simp [h, hv]

@[simp] theorem mget_mput_self [DecidableEq V] (m : List (Nat × V)) (k : Nat) (v d : V) : mget (mput m k v d) k d = v := by
  simp [mget_mput]

theorem mget_mput_ne [DecidableEq V] (m : List (Nat × V)) {k j : Nat} (v d : V) (h : j ≠ k) :
    mget (mput m k v d) j d = mget m j d := by
  simp [mget_mput, h]

@[simp] theorem mget_mins_self (m : List (Nat × V)) (k : Nat) (v d : V) : mget (mins m k v) k d = v := by simp [mget]

theorem mget_mins_ne (m : List (Nat × V)) {k j : Nat} (v d : V) (h : j ≠ k) : mget (mins m k v) j d = mget m j d := by
  simp [mget, mfind_mins, h]

/-- A read after a change of one entry. -/
theorem mget_mmod [DecidableEq V] (m : List (Nat × V)) (k j : Nat) (d : V) (f : V → V) :
    mget (mmod m k d f) j d = if j = k then f (mget m k d) else mget m j d := mget_mput m k j _ d

@[simp] theorem mget_mmod_self [DecidableEq V] (m : List (Nat × V)) (k : Nat) (d : V) (f : V → V) :
    mget (mmod m k d f) k d = f (mget m k d) := by simp [mget_mmod]

@[simp] theorem mget_nil (k : Nat) (d : V) : mget [] k d = d := rfl

theorem mfind_filter (m : List (Nat × V)) (p : Nat → Bool) (j : Nat) :
    mfind (m.filter (fun q => p q.1)) j = if p j then mfind m j else none := by
  induction m with
  | nil => simp [mfind]
  | cons q t ih =>
    obtain ⟨a, w⟩ := q
    simp only [List.filter_cons]
    by_cases ha : p a <;> by_cases hj : a = j <;> simp_all [mfind]

/-- A lookup after a range of keys is cleared. -/
theorem mfind_mclear (m : List (Nat × V)) (a n j : Nat) :
    mfind (mclear m a n) j = if a ≤ j ∧ j < a + n then none else mfind m j := by
  unfold mclear
  rw [mfind_filter m (fun k => !(decide (a ≤ k) && decide (k < a + n))) j]
  by_cases h : a ≤ j ∧ j < a + n
  · simp [h]
  · have : (!(decide (a ≤ j) && decide (j < a + n))) = true := by
      simp only [Bool.not_eq_true', Bool.and_eq_false_iff, decide_eq_false_iff_not]
      omega
    simp only [this, if_true, if_neg h]

theorem mget_mclear (m : List (Nat × V)) (a n j : Nat) (d : V) :
    mget (mclear m a n) j d = if a ≤ j ∧ j < a + n then d else mget m j d := by
  unfold mget
  rw [mfind_mclear]
  split <;> rfl

/-- A key below every key from `lo` on stands apart from the map's. -/
theorem msortedFrom_mono {m : List (Nat × V)} {lo lo' : Nat} (h : msortedFrom lo m = true) (hl : lo' ≤ lo) :
    msortedFrom lo' m = true := by
  cases m with
  | nil => rfl
  | cons p t =>
    simp only [msortedFrom, Bool.and_eq_true, decide_eq_true_eq] at *
    exact ⟨by omega, h.2⟩

theorem msortedFrom_mins {m : List (Nat × V)} {lo k : Nat} {v : V} (h : msortedFrom lo m = true) (hk : lo ≤ k) :
    msortedFrom lo (mins m k v) = true := by
  induction m generalizing lo with
  | nil => simp [mins, msortedFrom, hk]
  | cons p t ih =>
    obtain ⟨a, w⟩ := p
    simp only [msortedFrom, Bool.and_eq_true, decide_eq_true_eq] at h
    simp only [mins]
    split
    · simp only [msortedFrom, Bool.and_eq_true, decide_eq_true_eq]
      exact ⟨hk, by omega, h.2⟩
    · split
      · subst_vars
        simp only [msortedFrom, Bool.and_eq_true, decide_eq_true_eq]
        exact h
      · simp only [msortedFrom, Bool.and_eq_true, decide_eq_true_eq]
        exact ⟨h.1, ih h.2 (by omega)⟩

theorem msortedFrom_filter {m : List (Nat × V)} {lo : Nat} (p : Nat × V → Bool) (h : msortedFrom lo m = true) :
    msortedFrom lo (m.filter p) = true := by
  induction m generalizing lo with
  | nil => rfl
  | cons q t ih =>
    simp only [msortedFrom, Bool.and_eq_true, decide_eq_true_eq] at h
    simp only [List.filter_cons]
    split
    · simp only [msortedFrom, Bool.and_eq_true, decide_eq_true_eq]
      exact ⟨h.1, ih h.2⟩
    · exact msortedFrom_mono (ih h.2) (by omega)

/-- Keys of an insertion are the map's and the new one. -/
theorem mins_all {m : List (Nat × V)} {k : Nat} {v : V} {q : Nat × V → Bool} (h : m.all q = true) (hv : q (k, v) = true) :
    (mins m k v).all q = true := by
  induction m with
  | nil => simp [mins, hv]
  | cons p t ih =>
    simp only [List.all_cons, Bool.and_eq_true] at h
    simp only [mins]
    split
    · simp [hv, h]
    · split
      · simp [hv, h]
      · simp only [List.all_cons, Bool.and_eq_true]
        exact ⟨h.1, ih h.2⟩

theorem filter_all {m : List (Nat × V)} {q p : Nat × V → Bool} (h : m.all q = true) : (m.filter p).all q = true := by
  simp only [List.all_eq_true, List.mem_filter] at *
  exact fun x hx => h x hx.1

/-- A write keeps the canonical form. -/
theorem mwf_mput [DecidableEq V] {m : List (Nat × V)} {d : V} (k : Nat) (v : V) (h : mwf m d = true) :
    mwf (mput m k v d) d = true := by
  unfold mwf at *
  simp only [Bool.and_eq_true] at *
  unfold mput
  split
  · exact ⟨msortedFrom_filter _ h.1, filter_all h.2⟩
  · exact ⟨msortedFrom_mins h.1 (by omega), mins_all h.2 (by simpa)⟩

theorem mwf_mclear [DecidableEq V] {m : List (Nat × V)} {d : V} (a n : Nat) (h : mwf m d = true) :
    mwf (mclear m a n) d = true := by
  unfold mwf at *
  simp only [Bool.and_eq_true] at *
  exact ⟨msortedFrom_filter _ h.1, filter_all h.2⟩

theorem msortedFrom_append {a b : List (Nat × V)} {lo mid : Nat} (ha : msortedFrom lo a = true)
    (hm : ∀ p ∈ a, p.1 < mid) (hb : msortedFrom mid b = true) (hl : lo ≤ mid) : msortedFrom lo (a ++ b) = true := by
  induction a generalizing lo with
  | nil => exact msortedFrom_mono hb hl
  | cons p t ih =>
    simp only [List.cons_append, msortedFrom, Bool.and_eq_true, decide_eq_true_eq] at *
    exact ⟨ha.1, ih ha.2 (fun q hq => hm q (List.mem_cons_of_mem _ hq)) (hm p (List.mem_cons_self ..))⟩

/-- Keys moved by one distance stay in order. -/
theorem msortedFrom_shift {m : List (Nat × V)} {lo src dst : Nat} (h : msortedFrom lo m = true) (hs : src ≤ lo) :
    msortedFrom (lo - src + dst) (m.map (fun p => (p.1 - src + dst, p.2))) = true := by
  induction m generalizing lo with
  | nil => rfl
  | cons p t ih =>
    simp only [List.map_cons, msortedFrom, Bool.and_eq_true, decide_eq_true_eq] at *
    refine ⟨by omega, ?_⟩
    have := ih h.2 (by omega)
    rwa [show p.1 + 1 - src + dst = p.1 - src + dst + 1 by omega] at this

theorem msortedFrom_of_ge {m : List (Nat × V)} {lo hi : Nat} (h : msortedFrom lo m = true) (hm : ∀ p ∈ m, hi ≤ p.1) :
    msortedFrom hi m = true := by
  cases m with
  | nil => rfl
  | cons p t =>
    simp only [msortedFrom, Bool.and_eq_true, decide_eq_true_eq] at *
    exact ⟨hm p (List.mem_cons_self ..), h.2⟩

/-- A copy of a range of keys keeps the canonical form. -/
theorem mwf_mcopy [DecidableEq V] {m : List (Nat × V)} {d : V} (src dst n : Nat) (h : mwf m d = true) :
    mwf (mcopy m src dst n) d = true := by
  unfold mwf at *
  simp only [Bool.and_eq_true] at *
  unfold mcopy
  constructor
  · unfold msorted at *
    rw [List.append_assoc]
    refine msortedFrom_append (mid := dst) (msortedFrom_filter _ h.1) (fun p hp => ?_) ?_ (by omega)
    · simpa using (List.mem_filter.mp hp).2
    · refine msortedFrom_append (mid := dst + n) ?_ (fun p hp => ?_) ?_ (by omega)
      · have := msortedFrom_shift (src := src) (dst := dst) (lo := src)
          (m := m.filter (fun p => decide (src ≤ p.1) && decide (p.1 < src + n)))
          (msortedFrom_of_ge (msortedFrom_filter _ h.1) (fun p hp => by
            have := (List.mem_filter.mp hp).2
            simp at this
            exact this.1)) (Nat.le_refl _)
        simpa using this
      · obtain ⟨q, hq, rfl⟩ := List.mem_map.mp hp
        have := (List.mem_filter.mp hq).2
        simp at this ⊢
        omega
      · exact msortedFrom_of_ge (msortedFrom_filter _ h.1) (fun p hp => by simpa using (List.mem_filter.mp hp).2)
  · simp only [List.all_append, Bool.and_eq_true]
    refine ⟨⟨filter_all h.2, ?_⟩, filter_all h.2⟩
    simp only [List.all_eq_true] at *
    intro p hp
    obtain ⟨q, hq, rfl⟩ := List.mem_map.mp hp
    exact h.2 q (List.mem_filter.mp hq).1

/-- A read after a write of a byte memory. -/
theorem memRd_memWr (m : Mem) (fill : Byte) (a j : Nat) (b : Byte) :
    memRd (memWr m fill a b) fill j = if j = a then b else memRd m fill j := mget_mput m a j b fill

/-- Bytes outside the written ones read as before. -/
theorem memRd_memWrN (m : Mem) (fill : Byte) (a : Nat) (bs : List Byte) (j : Nat) :
    memRd (memWrN m fill a bs) fill j = if a ≤ j ∧ j < a + bs.length then (bs[j - a]?).getD 0 else memRd m fill j := by
  induction bs generalizing m a with
  | nil => simp only [memWrN, List.length_nil]; rw [if_neg (by omega)]
  | cons b t ih =>
    simp only [memWrN, ih, memRd_memWr, List.length_cons]
    by_cases hj : j = a
    · subst hj
      have : ¬(j + 1 ≤ j ∧ j < j + 1 + t.length) := by omega
      simp [this]
    · by_cases hr : a + 1 ≤ j ∧ j < a + 1 + t.length
      · have : a ≤ j ∧ j < a + (t.length + 1) := by omega
        simp only [hr, and_self, if_true, this]
        rw [show j - a = (j - (a + 1)) + 1 by omega, List.getElem?_cons_succ]
      · have : ¬(a ≤ j ∧ j < a + (t.length + 1)) := by omega
        rw [if_neg hr, if_neg this, if_neg hj]

/-- The bytes just written read back. -/
theorem memRdN_memWrN_self (m : Mem) (fill : Byte) (a : Nat) (bs : List Byte) :
    memRdN (memWrN m fill a bs) fill a bs.length = bs := by
  have key : ∀ (n k : Nat), k + n = bs.length → memRdN (memWrN m fill a bs) fill (a + k) n = bs.drop k := by
    intro n
    induction n with
    | zero => intro k hk; simp [memRdN, ← hk]
    | succ n ih =>
      intro k hk
      simp only [memRdN, memRd_memWrN]
      have h1 : a ≤ a + k ∧ a + k < a + bs.length := by omega
      simp only [h1, and_self, if_true]
      rw [show a + k + 1 = a + (k + 1) by omega, ih (k + 1) (by omega), show a + k - a = k by omega]
      have hlt : k < bs.length := by omega
      rw [List.getElem?_eq_getElem hlt]
      simp only [Option.getD_some]
      exact (List.drop_eq_getElem_cons hlt).symm
  simpa using key bs.length 0 (by omega)

theorem memWr_wf {m : Mem} {fill : Byte} (a : Nat) (b : Byte) (h : Memory.wf m fill = true) :
    Memory.wf (memWr m fill a b) fill = true := mwf_mput a b h

/-- A write of bytes keeps a memory's canonical form. -/
theorem memWrN_wf {m : Mem} {fill : Byte} (a : Nat) (bs : List Byte) (h : Memory.wf m fill = true) :
    Memory.wf (memWrN m fill a bs) fill = true := by
  induction bs generalizing m a with
  | nil => exact h
  | cons b t ih => exact ih (a + 1) (memWr_wf a b h)

end Sys2Proof.Machine
end

