-- ==== Sys2Proof/Laws/State.lean ====
section
/-! SUPPORT. What the named updates of the state leave alone: one law per update and field, each true by definition; what the updates
write, as their readers see it; and the same for a fold of updates. -/

namespace Sys2Proof.Machine

@[simp] theorem rset_jnl (s : State) (k : Nat) (w : Word) : (rset s k w).jnl = s.jnl := rfl
@[simp] theorem rset_mram (s : State) (k : Nat) (w : Word) : (rset s k w).mram = s.mram := rfl
@[simp] theorem rset_clk (s : State) (k : Nat) (w : Word) : (rset s k w).clk = s.clk := rfl
@[simp] theorem rset_cores (s : State) (k : Nat) (w : Word) : (rset s k w).cores = s.cores := rfl
@[simp] theorem rset_cpx (s : State) (k : Nat) (w : Word) : (rset s k w).cpx = s.cpx := rfl
@[simp] theorem rset_lck (s : State) (k : Nat) (w : Word) : (rset s k w).lck = s.lck := rfl
@[simp] theorem rset_bpm (s : State) (k : Nat) (w : Word) : (rset s k w).bpm = s.bpm := rfl
@[simp] theorem rset_dsp (s : State) (k : Nat) (w : Word) : (rset s k w).dsp = s.dsp := rfl
@[simp] theorem rset_port (s : State) (k : Nat) (w : Word) : (rset s k w).port = s.port := rfl
@[simp] theorem rset_rules (s : State) (k : Nat) (w : Word) : (rset s k w).rules = s.rules := rfl
@[simp] theorem rset_tbl (s : State) (k : Nat) (w : Word) : (rset s k w).tbl = s.tbl := rfl
@[simp] theorem rset_hif (s : State) (k : Nat) (w : Word) : (rset s k w).hif = s.hif := rfl
@[simp] theorem rset_tm (s : State) (k : Nat) (w : Word) : (rset s k w).tm = s.tm := rfl
@[simp] theorem rset_sec (s : State) (k : Nat) (w : Word) : (rset s k w).sec = s.sec := rfl
@[simp] theorem rset_img (s : State) (k : Nat) (w : Word) : (rset s k w).img = s.img := rfl
@[simp] theorem rset_insSt (s : State) (k : Nat) (w : Word) : (rset s k w).insSt = s.insSt := rfl
@[simp] theorem rset_ctl (s : State) (k : Nat) (w : Word) : (rset s k w).ctl = s.ctl := rfl
@[simp] theorem rset_load (s : State) (k : Nat) (w : Word) : (rset s k w).load = s.load := rfl
@[simp] theorem rset_boot (s : State) (k : Nat) (w : Word) : (rset s k w).boot = s.boot := rfl
@[simp] theorem rset_hb (s : State) (k : Nat) (w : Word) : (rset s k w).hb = s.hb := rfl
@[simp] theorem rset_dram (s : State) (k : Nat) (w : Word) : (rset s k w).dram = s.dram := rfl
@[simp] theorem rset_dmc (s : State) (k : Nat) (w : Word) : (rset s k w).dmc = s.dmc := rfl
@[simp] theorem rset_outs (s : State) (k : Nat) (w : Word) : (rset s k w).outs = s.outs := rfl
@[simp] theorem rset_free (s : State) (k : Nat) (w : Word) : (rset s k w).free = s.free := rfl
@[simp] theorem rset_pending (s : State) (k : Nat) (w : Word) : (rset s k w).pending = s.pending := rfl

@[simp] theorem rsetF_jnl (s : State) (k hi lo v : Nat) : (rsetF s k hi lo v).jnl = s.jnl := rfl
@[simp] theorem rsetF_mram (s : State) (k hi lo v : Nat) : (rsetF s k hi lo v).mram = s.mram := rfl
@[simp] theorem rsetF_clk (s : State) (k hi lo v : Nat) : (rsetF s k hi lo v).clk = s.clk := rfl
@[simp] theorem rsetF_cores (s : State) (k hi lo v : Nat) : (rsetF s k hi lo v).cores = s.cores := rfl
@[simp] theorem rsetF_cpx (s : State) (k hi lo v : Nat) : (rsetF s k hi lo v).cpx = s.cpx := rfl
@[simp] theorem rsetF_lck (s : State) (k hi lo v : Nat) : (rsetF s k hi lo v).lck = s.lck := rfl
@[simp] theorem rsetF_bpm (s : State) (k hi lo v : Nat) : (rsetF s k hi lo v).bpm = s.bpm := rfl
@[simp] theorem rsetF_dsp (s : State) (k hi lo v : Nat) : (rsetF s k hi lo v).dsp = s.dsp := rfl
@[simp] theorem rsetF_port (s : State) (k hi lo v : Nat) : (rsetF s k hi lo v).port = s.port := rfl
@[simp] theorem rsetF_rules (s : State) (k hi lo v : Nat) : (rsetF s k hi lo v).rules = s.rules := rfl
@[simp] theorem rsetF_tbl (s : State) (k hi lo v : Nat) : (rsetF s k hi lo v).tbl = s.tbl := rfl
@[simp] theorem rsetF_hif (s : State) (k hi lo v : Nat) : (rsetF s k hi lo v).hif = s.hif := rfl
@[simp] theorem rsetF_tm (s : State) (k hi lo v : Nat) : (rsetF s k hi lo v).tm = s.tm := rfl
@[simp] theorem rsetF_sec (s : State) (k hi lo v : Nat) : (rsetF s k hi lo v).sec = s.sec := rfl
@[simp] theorem rsetF_img (s : State) (k hi lo v : Nat) : (rsetF s k hi lo v).img = s.img := rfl
@[simp] theorem rsetF_insSt (s : State) (k hi lo v : Nat) : (rsetF s k hi lo v).insSt = s.insSt := rfl
@[simp] theorem rsetF_ctl (s : State) (k hi lo v : Nat) : (rsetF s k hi lo v).ctl = s.ctl := rfl
@[simp] theorem rsetF_load (s : State) (k hi lo v : Nat) : (rsetF s k hi lo v).load = s.load := rfl
@[simp] theorem rsetF_boot (s : State) (k hi lo v : Nat) : (rsetF s k hi lo v).boot = s.boot := rfl
@[simp] theorem rsetF_hb (s : State) (k hi lo v : Nat) : (rsetF s k hi lo v).hb = s.hb := rfl
@[simp] theorem rsetF_dram (s : State) (k hi lo v : Nat) : (rsetF s k hi lo v).dram = s.dram := rfl
@[simp] theorem rsetF_dmc (s : State) (k hi lo v : Nat) : (rsetF s k hi lo v).dmc = s.dmc := rfl
@[simp] theorem rsetF_outs (s : State) (k hi lo v : Nat) : (rsetF s k hi lo v).outs = s.outs := rfl
@[simp] theorem rsetF_free (s : State) (k hi lo v : Nat) : (rsetF s k hi lo v).free = s.free := rfl
@[simp] theorem rsetF_pending (s : State) (k hi lo v : Nat) : (rsetF s k hi lo v).pending = s.pending := rfl

@[simp] theorem cntAdd_jnl (k n : Nat) (s : State) : (cntAdd k n s).jnl = s.jnl := rfl
@[simp] theorem cntAdd_mram (k n : Nat) (s : State) : (cntAdd k n s).mram = s.mram := rfl
@[simp] theorem cntAdd_clk (k n : Nat) (s : State) : (cntAdd k n s).clk = s.clk := rfl
@[simp] theorem cntAdd_cores (k n : Nat) (s : State) : (cntAdd k n s).cores = s.cores := rfl
@[simp] theorem cntAdd_cpx (k n : Nat) (s : State) : (cntAdd k n s).cpx = s.cpx := rfl
@[simp] theorem cntAdd_lck (k n : Nat) (s : State) : (cntAdd k n s).lck = s.lck := rfl
@[simp] theorem cntAdd_bpm (k n : Nat) (s : State) : (cntAdd k n s).bpm = s.bpm := rfl
@[simp] theorem cntAdd_dsp (k n : Nat) (s : State) : (cntAdd k n s).dsp = s.dsp := rfl
@[simp] theorem cntAdd_port (k n : Nat) (s : State) : (cntAdd k n s).port = s.port := rfl
@[simp] theorem cntAdd_rules (k n : Nat) (s : State) : (cntAdd k n s).rules = s.rules := rfl
@[simp] theorem cntAdd_tbl (k n : Nat) (s : State) : (cntAdd k n s).tbl = s.tbl := rfl
@[simp] theorem cntAdd_hif (k n : Nat) (s : State) : (cntAdd k n s).hif = s.hif := rfl
@[simp] theorem cntAdd_tm (k n : Nat) (s : State) : (cntAdd k n s).tm = s.tm := rfl
@[simp] theorem cntAdd_sec (k n : Nat) (s : State) : (cntAdd k n s).sec = s.sec := rfl
@[simp] theorem cntAdd_img (k n : Nat) (s : State) : (cntAdd k n s).img = s.img := rfl
@[simp] theorem cntAdd_insSt (k n : Nat) (s : State) : (cntAdd k n s).insSt = s.insSt := rfl
@[simp] theorem cntAdd_ctl (k n : Nat) (s : State) : (cntAdd k n s).ctl = s.ctl := rfl
@[simp] theorem cntAdd_load (k n : Nat) (s : State) : (cntAdd k n s).load = s.load := rfl
@[simp] theorem cntAdd_boot (k n : Nat) (s : State) : (cntAdd k n s).boot = s.boot := rfl
@[simp] theorem cntAdd_hb (k n : Nat) (s : State) : (cntAdd k n s).hb = s.hb := rfl
@[simp] theorem cntAdd_dram (k n : Nat) (s : State) : (cntAdd k n s).dram = s.dram := rfl
@[simp] theorem cntAdd_dmc (k n : Nat) (s : State) : (cntAdd k n s).dmc = s.dmc := rfl
@[simp] theorem cntAdd_outs (k n : Nat) (s : State) : (cntAdd k n s).outs = s.outs := rfl
@[simp] theorem cntAdd_free (k n : Nat) (s : State) : (cntAdd k n s).free = s.free := rfl
@[simp] theorem cntAdd_pending (k n : Nat) (s : State) : (cntAdd k n s).pending = s.pending := rfl

@[simp] theorem cnt_jnl (k : Nat) (s : State) : (cnt k s).jnl = s.jnl := rfl
@[simp] theorem cnt_mram (k : Nat) (s : State) : (cnt k s).mram = s.mram := rfl
@[simp] theorem cnt_clk (k : Nat) (s : State) : (cnt k s).clk = s.clk := rfl
@[simp] theorem cnt_cores (k : Nat) (s : State) : (cnt k s).cores = s.cores := rfl
@[simp] theorem cnt_cpx (k : Nat) (s : State) : (cnt k s).cpx = s.cpx := rfl
@[simp] theorem cnt_lck (k : Nat) (s : State) : (cnt k s).lck = s.lck := rfl
@[simp] theorem cnt_bpm (k : Nat) (s : State) : (cnt k s).bpm = s.bpm := rfl
@[simp] theorem cnt_dsp (k : Nat) (s : State) : (cnt k s).dsp = s.dsp := rfl
@[simp] theorem cnt_port (k : Nat) (s : State) : (cnt k s).port = s.port := rfl
@[simp] theorem cnt_rules (k : Nat) (s : State) : (cnt k s).rules = s.rules := rfl
@[simp] theorem cnt_tbl (k : Nat) (s : State) : (cnt k s).tbl = s.tbl := rfl
@[simp] theorem cnt_hif (k : Nat) (s : State) : (cnt k s).hif = s.hif := rfl
@[simp] theorem cnt_tm (k : Nat) (s : State) : (cnt k s).tm = s.tm := rfl
@[simp] theorem cnt_sec (k : Nat) (s : State) : (cnt k s).sec = s.sec := rfl
@[simp] theorem cnt_img (k : Nat) (s : State) : (cnt k s).img = s.img := rfl
@[simp] theorem cnt_insSt (k : Nat) (s : State) : (cnt k s).insSt = s.insSt := rfl
@[simp] theorem cnt_ctl (k : Nat) (s : State) : (cnt k s).ctl = s.ctl := rfl
@[simp] theorem cnt_load (k : Nat) (s : State) : (cnt k s).load = s.load := rfl
@[simp] theorem cnt_boot (k : Nat) (s : State) : (cnt k s).boot = s.boot := rfl
@[simp] theorem cnt_hb (k : Nat) (s : State) : (cnt k s).hb = s.hb := rfl
@[simp] theorem cnt_dram (k : Nat) (s : State) : (cnt k s).dram = s.dram := rfl
@[simp] theorem cnt_dmc (k : Nat) (s : State) : (cnt k s).dmc = s.dmc := rfl
@[simp] theorem cnt_outs (k : Nat) (s : State) : (cnt k s).outs = s.outs := rfl
@[simp] theorem cnt_free (k : Nat) (s : State) : (cnt k s).free = s.free := rfl
@[simp] theorem cnt_pending (k : Nat) (s : State) : (cnt k s).pending = s.pending := rfl

@[simp] theorem regsReset_jnl (a n : Nat) (s : State) : (regsReset a n s).jnl = s.jnl := rfl
@[simp] theorem regsReset_mram (a n : Nat) (s : State) : (regsReset a n s).mram = s.mram := rfl
@[simp] theorem regsReset_clk (a n : Nat) (s : State) : (regsReset a n s).clk = s.clk := rfl
@[simp] theorem regsReset_cores (a n : Nat) (s : State) : (regsReset a n s).cores = s.cores := rfl
@[simp] theorem regsReset_cpx (a n : Nat) (s : State) : (regsReset a n s).cpx = s.cpx := rfl
@[simp] theorem regsReset_lck (a n : Nat) (s : State) : (regsReset a n s).lck = s.lck := rfl
@[simp] theorem regsReset_bpm (a n : Nat) (s : State) : (regsReset a n s).bpm = s.bpm := rfl
@[simp] theorem regsReset_dsp (a n : Nat) (s : State) : (regsReset a n s).dsp = s.dsp := rfl
@[simp] theorem regsReset_port (a n : Nat) (s : State) : (regsReset a n s).port = s.port := rfl
@[simp] theorem regsReset_rules (a n : Nat) (s : State) : (regsReset a n s).rules = s.rules := rfl
@[simp] theorem regsReset_tbl (a n : Nat) (s : State) : (regsReset a n s).tbl = s.tbl := rfl
@[simp] theorem regsReset_hif (a n : Nat) (s : State) : (regsReset a n s).hif = s.hif := rfl
@[simp] theorem regsReset_tm (a n : Nat) (s : State) : (regsReset a n s).tm = s.tm := rfl
@[simp] theorem regsReset_sec (a n : Nat) (s : State) : (regsReset a n s).sec = s.sec := rfl
@[simp] theorem regsReset_img (a n : Nat) (s : State) : (regsReset a n s).img = s.img := rfl
@[simp] theorem regsReset_insSt (a n : Nat) (s : State) : (regsReset a n s).insSt = s.insSt := rfl
@[simp] theorem regsReset_ctl (a n : Nat) (s : State) : (regsReset a n s).ctl = s.ctl := rfl
@[simp] theorem regsReset_load (a n : Nat) (s : State) : (regsReset a n s).load = s.load := rfl
@[simp] theorem regsReset_boot (a n : Nat) (s : State) : (regsReset a n s).boot = s.boot := rfl
@[simp] theorem regsReset_hb (a n : Nat) (s : State) : (regsReset a n s).hb = s.hb := rfl
@[simp] theorem regsReset_dram (a n : Nat) (s : State) : (regsReset a n s).dram = s.dram := rfl
@[simp] theorem regsReset_dmc (a n : Nat) (s : State) : (regsReset a n s).dmc = s.dmc := rfl
@[simp] theorem regsReset_outs (a n : Nat) (s : State) : (regsReset a n s).outs = s.outs := rfl
@[simp] theorem regsReset_free (a n : Nat) (s : State) : (regsReset a n s).free = s.free := rfl
@[simp] theorem regsReset_pending (a n : Nat) (s : State) : (regsReset a n s).pending = s.pending := rfl

@[simp] theorem blkMod_jnl (s : State) (b c : Nat) (f : BlkCopy → BlkCopy) : (blkMod s b c f).jnl = s.jnl := rfl
@[simp] theorem blkMod_mram (s : State) (b c : Nat) (f : BlkCopy → BlkCopy) : (blkMod s b c f).mram = s.mram := rfl
@[simp] theorem blkMod_clk (s : State) (b c : Nat) (f : BlkCopy → BlkCopy) : (blkMod s b c f).clk = s.clk := rfl
@[simp] theorem blkMod_cores (s : State) (b c : Nat) (f : BlkCopy → BlkCopy) : (blkMod s b c f).cores = s.cores := rfl
@[simp] theorem blkMod_cpx (s : State) (b c : Nat) (f : BlkCopy → BlkCopy) : (blkMod s b c f).cpx = s.cpx := rfl
@[simp] theorem blkMod_lck (s : State) (b c : Nat) (f : BlkCopy → BlkCopy) : (blkMod s b c f).lck = s.lck := rfl
@[simp] theorem blkMod_bpm (s : State) (b c : Nat) (f : BlkCopy → BlkCopy) : (blkMod s b c f).bpm = s.bpm := rfl
@[simp] theorem blkMod_dsp (s : State) (b c : Nat) (f : BlkCopy → BlkCopy) : (blkMod s b c f).dsp = s.dsp := rfl
@[simp] theorem blkMod_port (s : State) (b c : Nat) (f : BlkCopy → BlkCopy) : (blkMod s b c f).port = s.port := rfl
@[simp] theorem blkMod_rules (s : State) (b c : Nat) (f : BlkCopy → BlkCopy) : (blkMod s b c f).rules = s.rules := rfl
@[simp] theorem blkMod_tbl (s : State) (b c : Nat) (f : BlkCopy → BlkCopy) : (blkMod s b c f).tbl = s.tbl := rfl
@[simp] theorem blkMod_hif (s : State) (b c : Nat) (f : BlkCopy → BlkCopy) : (blkMod s b c f).hif = s.hif := rfl
@[simp] theorem blkMod_tm (s : State) (b c : Nat) (f : BlkCopy → BlkCopy) : (blkMod s b c f).tm = s.tm := rfl
@[simp] theorem blkMod_sec (s : State) (b c : Nat) (f : BlkCopy → BlkCopy) : (blkMod s b c f).sec = s.sec := rfl
@[simp] theorem blkMod_img (s : State) (b c : Nat) (f : BlkCopy → BlkCopy) : (blkMod s b c f).img = s.img := rfl
@[simp] theorem blkMod_insSt (s : State) (b c : Nat) (f : BlkCopy → BlkCopy) : (blkMod s b c f).insSt = s.insSt := rfl
@[simp] theorem blkMod_ctl (s : State) (b c : Nat) (f : BlkCopy → BlkCopy) : (blkMod s b c f).ctl = s.ctl := rfl
@[simp] theorem blkMod_load (s : State) (b c : Nat) (f : BlkCopy → BlkCopy) : (blkMod s b c f).load = s.load := rfl
@[simp] theorem blkMod_boot (s : State) (b c : Nat) (f : BlkCopy → BlkCopy) : (blkMod s b c f).boot = s.boot := rfl
@[simp] theorem blkMod_hb (s : State) (b c : Nat) (f : BlkCopy → BlkCopy) : (blkMod s b c f).hb = s.hb := rfl
@[simp] theorem blkMod_dram (s : State) (b c : Nat) (f : BlkCopy → BlkCopy) : (blkMod s b c f).dram = s.dram := rfl
@[simp] theorem blkMod_dmc (s : State) (b c : Nat) (f : BlkCopy → BlkCopy) : (blkMod s b c f).dmc = s.dmc := rfl
@[simp] theorem blkMod_outs (s : State) (b c : Nat) (f : BlkCopy → BlkCopy) : (blkMod s b c f).outs = s.outs := rfl
@[simp] theorem blkMod_free (s : State) (b c : Nat) (f : BlkCopy → BlkCopy) : (blkMod s b c f).free = s.free := rfl
@[simp] theorem blkMod_pending (s : State) (b c : Nat) (f : BlkCopy → BlkCopy) : (blkMod s b c f).pending = s.pending := rfl

@[simp] theorem cfgReject_jnl (b c : Nat) (s : State) : (cfgReject b c s).jnl = s.jnl := rfl
@[simp] theorem cfgReject_mram (b c : Nat) (s : State) : (cfgReject b c s).mram = s.mram := rfl
@[simp] theorem cfgReject_clk (b c : Nat) (s : State) : (cfgReject b c s).clk = s.clk := rfl
@[simp] theorem cfgReject_cores (b c : Nat) (s : State) : (cfgReject b c s).cores = s.cores := rfl
@[simp] theorem cfgReject_cpx (b c : Nat) (s : State) : (cfgReject b c s).cpx = s.cpx := rfl
@[simp] theorem cfgReject_lck (b c : Nat) (s : State) : (cfgReject b c s).lck = s.lck := rfl
@[simp] theorem cfgReject_bpm (b c : Nat) (s : State) : (cfgReject b c s).bpm = s.bpm := rfl
@[simp] theorem cfgReject_dsp (b c : Nat) (s : State) : (cfgReject b c s).dsp = s.dsp := rfl
@[simp] theorem cfgReject_port (b c : Nat) (s : State) : (cfgReject b c s).port = s.port := rfl
@[simp] theorem cfgReject_rules (b c : Nat) (s : State) : (cfgReject b c s).rules = s.rules := rfl
@[simp] theorem cfgReject_tbl (b c : Nat) (s : State) : (cfgReject b c s).tbl = s.tbl := rfl
@[simp] theorem cfgReject_hif (b c : Nat) (s : State) : (cfgReject b c s).hif = s.hif := rfl
@[simp] theorem cfgReject_tm (b c : Nat) (s : State) : (cfgReject b c s).tm = s.tm := rfl
@[simp] theorem cfgReject_sec (b c : Nat) (s : State) : (cfgReject b c s).sec = s.sec := rfl
@[simp] theorem cfgReject_img (b c : Nat) (s : State) : (cfgReject b c s).img = s.img := rfl
@[simp] theorem cfgReject_insSt (b c : Nat) (s : State) : (cfgReject b c s).insSt = s.insSt := rfl
@[simp] theorem cfgReject_ctl (b c : Nat) (s : State) : (cfgReject b c s).ctl = s.ctl := rfl
@[simp] theorem cfgReject_load (b c : Nat) (s : State) : (cfgReject b c s).load = s.load := rfl
@[simp] theorem cfgReject_boot (b c : Nat) (s : State) : (cfgReject b c s).boot = s.boot := rfl
@[simp] theorem cfgReject_hb (b c : Nat) (s : State) : (cfgReject b c s).hb = s.hb := rfl
@[simp] theorem cfgReject_dram (b c : Nat) (s : State) : (cfgReject b c s).dram = s.dram := rfl
@[simp] theorem cfgReject_dmc (b c : Nat) (s : State) : (cfgReject b c s).dmc = s.dmc := rfl
@[simp] theorem cfgReject_outs (b c : Nat) (s : State) : (cfgReject b c s).outs = s.outs := rfl
@[simp] theorem cfgReject_free (b c : Nat) (s : State) : (cfgReject b c s).free = s.free := rfl
@[simp] theorem cfgReject_pending (b c : Nat) (s : State) : (cfgReject b c s).pending = s.pending := rfl

@[simp] theorem emit_regs (o : Out) (s : State) : (emit o s).regs = s.regs := rfl
@[simp] theorem emit_jnl (o : Out) (s : State) : (emit o s).jnl = s.jnl := rfl
@[simp] theorem emit_mram (o : Out) (s : State) : (emit o s).mram = s.mram := rfl
@[simp] theorem emit_clk (o : Out) (s : State) : (emit o s).clk = s.clk := rfl
@[simp] theorem emit_cores (o : Out) (s : State) : (emit o s).cores = s.cores := rfl
@[simp] theorem emit_cpx (o : Out) (s : State) : (emit o s).cpx = s.cpx := rfl
@[simp] theorem emit_lck (o : Out) (s : State) : (emit o s).lck = s.lck := rfl
@[simp] theorem emit_bpm (o : Out) (s : State) : (emit o s).bpm = s.bpm := rfl
@[simp] theorem emit_dsp (o : Out) (s : State) : (emit o s).dsp = s.dsp := rfl
@[simp] theorem emit_port (o : Out) (s : State) : (emit o s).port = s.port := rfl
@[simp] theorem emit_rules (o : Out) (s : State) : (emit o s).rules = s.rules := rfl
@[simp] theorem emit_tbl (o : Out) (s : State) : (emit o s).tbl = s.tbl := rfl
@[simp] theorem emit_hif (o : Out) (s : State) : (emit o s).hif = s.hif := rfl
@[simp] theorem emit_tm (o : Out) (s : State) : (emit o s).tm = s.tm := rfl
@[simp] theorem emit_sec (o : Out) (s : State) : (emit o s).sec = s.sec := rfl
@[simp] theorem emit_img (o : Out) (s : State) : (emit o s).img = s.img := rfl
@[simp] theorem emit_insSt (o : Out) (s : State) : (emit o s).insSt = s.insSt := rfl
@[simp] theorem emit_ctl (o : Out) (s : State) : (emit o s).ctl = s.ctl := rfl
@[simp] theorem emit_load (o : Out) (s : State) : (emit o s).load = s.load := rfl
@[simp] theorem emit_boot (o : Out) (s : State) : (emit o s).boot = s.boot := rfl
@[simp] theorem emit_hb (o : Out) (s : State) : (emit o s).hb = s.hb := rfl
@[simp] theorem emit_dram (o : Out) (s : State) : (emit o s).dram = s.dram := rfl
@[simp] theorem emit_dmc (o : Out) (s : State) : (emit o s).dmc = s.dmc := rfl
@[simp] theorem emit_free (o : Out) (s : State) : (emit o s).free = s.free := rfl
@[simp] theorem emit_pending (o : Out) (s : State) : (emit o s).pending = s.pending := rfl

@[simp] theorem setThr_regs (k : Nat) (t : Thread) (s : State) : (setThr k t s).regs = s.regs := rfl
@[simp] theorem setThr_jnl (k : Nat) (t : Thread) (s : State) : (setThr k t s).jnl = s.jnl := rfl
@[simp] theorem setThr_mram (k : Nat) (t : Thread) (s : State) : (setThr k t s).mram = s.mram := rfl
@[simp] theorem setThr_clk (k : Nat) (t : Thread) (s : State) : (setThr k t s).clk = s.clk := rfl
@[simp] theorem setThr_cpx (k : Nat) (t : Thread) (s : State) : (setThr k t s).cpx = s.cpx := rfl
@[simp] theorem setThr_lck (k : Nat) (t : Thread) (s : State) : (setThr k t s).lck = s.lck := rfl
@[simp] theorem setThr_bpm (k : Nat) (t : Thread) (s : State) : (setThr k t s).bpm = s.bpm := rfl
@[simp] theorem setThr_dsp (k : Nat) (t : Thread) (s : State) : (setThr k t s).dsp = s.dsp := rfl
@[simp] theorem setThr_port (k : Nat) (t : Thread) (s : State) : (setThr k t s).port = s.port := rfl
@[simp] theorem setThr_rules (k : Nat) (t : Thread) (s : State) : (setThr k t s).rules = s.rules := rfl
@[simp] theorem setThr_tbl (k : Nat) (t : Thread) (s : State) : (setThr k t s).tbl = s.tbl := rfl
@[simp] theorem setThr_hif (k : Nat) (t : Thread) (s : State) : (setThr k t s).hif = s.hif := rfl
@[simp] theorem setThr_tm (k : Nat) (t : Thread) (s : State) : (setThr k t s).tm = s.tm := rfl
@[simp] theorem setThr_sec (k : Nat) (t : Thread) (s : State) : (setThr k t s).sec = s.sec := rfl
@[simp] theorem setThr_img (k : Nat) (t : Thread) (s : State) : (setThr k t s).img = s.img := rfl
@[simp] theorem setThr_insSt (k : Nat) (t : Thread) (s : State) : (setThr k t s).insSt = s.insSt := rfl
@[simp] theorem setThr_ctl (k : Nat) (t : Thread) (s : State) : (setThr k t s).ctl = s.ctl := rfl
@[simp] theorem setThr_load (k : Nat) (t : Thread) (s : State) : (setThr k t s).load = s.load := rfl
@[simp] theorem setThr_boot (k : Nat) (t : Thread) (s : State) : (setThr k t s).boot = s.boot := rfl
@[simp] theorem setThr_hb (k : Nat) (t : Thread) (s : State) : (setThr k t s).hb = s.hb := rfl
@[simp] theorem setThr_dram (k : Nat) (t : Thread) (s : State) : (setThr k t s).dram = s.dram := rfl
@[simp] theorem setThr_dmc (k : Nat) (t : Thread) (s : State) : (setThr k t s).dmc = s.dmc := rfl
@[simp] theorem setThr_outs (k : Nat) (t : Thread) (s : State) : (setThr k t s).outs = s.outs := rfl
@[simp] theorem setThr_free (k : Nat) (t : Thread) (s : State) : (setThr k t s).free = s.free := rfl
@[simp] theorem setThr_pending (k : Nat) (t : Thread) (s : State) : (setThr k t s).pending = s.pending := rfl

@[simp] theorem thrMod_regs (k : Nat) (f : Thread → Thread) (s : State) : (thrMod k f s).regs = s.regs := rfl
@[simp] theorem thrMod_jnl (k : Nat) (f : Thread → Thread) (s : State) : (thrMod k f s).jnl = s.jnl := rfl
@[simp] theorem thrMod_mram (k : Nat) (f : Thread → Thread) (s : State) : (thrMod k f s).mram = s.mram := rfl
@[simp] theorem thrMod_clk (k : Nat) (f : Thread → Thread) (s : State) : (thrMod k f s).clk = s.clk := rfl
@[simp] theorem thrMod_cpx (k : Nat) (f : Thread → Thread) (s : State) : (thrMod k f s).cpx = s.cpx := rfl
@[simp] theorem thrMod_lck (k : Nat) (f : Thread → Thread) (s : State) : (thrMod k f s).lck = s.lck := rfl
@[simp] theorem thrMod_bpm (k : Nat) (f : Thread → Thread) (s : State) : (thrMod k f s).bpm = s.bpm := rfl
@[simp] theorem thrMod_dsp (k : Nat) (f : Thread → Thread) (s : State) : (thrMod k f s).dsp = s.dsp := rfl
@[simp] theorem thrMod_port (k : Nat) (f : Thread → Thread) (s : State) : (thrMod k f s).port = s.port := rfl
@[simp] theorem thrMod_rules (k : Nat) (f : Thread → Thread) (s : State) : (thrMod k f s).rules = s.rules := rfl
@[simp] theorem thrMod_tbl (k : Nat) (f : Thread → Thread) (s : State) : (thrMod k f s).tbl = s.tbl := rfl
@[simp] theorem thrMod_hif (k : Nat) (f : Thread → Thread) (s : State) : (thrMod k f s).hif = s.hif := rfl
@[simp] theorem thrMod_tm (k : Nat) (f : Thread → Thread) (s : State) : (thrMod k f s).tm = s.tm := rfl
@[simp] theorem thrMod_sec (k : Nat) (f : Thread → Thread) (s : State) : (thrMod k f s).sec = s.sec := rfl
@[simp] theorem thrMod_img (k : Nat) (f : Thread → Thread) (s : State) : (thrMod k f s).img = s.img := rfl
@[simp] theorem thrMod_insSt (k : Nat) (f : Thread → Thread) (s : State) : (thrMod k f s).insSt = s.insSt := rfl
@[simp] theorem thrMod_ctl (k : Nat) (f : Thread → Thread) (s : State) : (thrMod k f s).ctl = s.ctl := rfl
@[simp] theorem thrMod_load (k : Nat) (f : Thread → Thread) (s : State) : (thrMod k f s).load = s.load := rfl
@[simp] theorem thrMod_boot (k : Nat) (f : Thread → Thread) (s : State) : (thrMod k f s).boot = s.boot := rfl
@[simp] theorem thrMod_hb (k : Nat) (f : Thread → Thread) (s : State) : (thrMod k f s).hb = s.hb := rfl
@[simp] theorem thrMod_dram (k : Nat) (f : Thread → Thread) (s : State) : (thrMod k f s).dram = s.dram := rfl
@[simp] theorem thrMod_dmc (k : Nat) (f : Thread → Thread) (s : State) : (thrMod k f s).dmc = s.dmc := rfl
@[simp] theorem thrMod_outs (k : Nat) (f : Thread → Thread) (s : State) : (thrMod k f s).outs = s.outs := rfl
@[simp] theorem thrMod_free (k : Nat) (f : Thread → Thread) (s : State) : (thrMod k f s).free = s.free := rfl
@[simp] theorem thrMod_pending (k : Nat) (f : Thread → Thread) (s : State) : (thrMod k f s).pending = s.pending := rfl

@[simp] theorem commitCnt_regs (c : Nat) (s : State) : (commitCnt c s).regs = s.regs := rfl
@[simp] theorem commitCnt_jnl (c : Nat) (s : State) : (commitCnt c s).jnl = s.jnl := rfl
@[simp] theorem commitCnt_mram (c : Nat) (s : State) : (commitCnt c s).mram = s.mram := rfl
@[simp] theorem commitCnt_clk (c : Nat) (s : State) : (commitCnt c s).clk = s.clk := rfl
@[simp] theorem commitCnt_cpx (c : Nat) (s : State) : (commitCnt c s).cpx = s.cpx := rfl
@[simp] theorem commitCnt_lck (c : Nat) (s : State) : (commitCnt c s).lck = s.lck := rfl
@[simp] theorem commitCnt_bpm (c : Nat) (s : State) : (commitCnt c s).bpm = s.bpm := rfl
@[simp] theorem commitCnt_dsp (c : Nat) (s : State) : (commitCnt c s).dsp = s.dsp := rfl
@[simp] theorem commitCnt_port (c : Nat) (s : State) : (commitCnt c s).port = s.port := rfl
@[simp] theorem commitCnt_rules (c : Nat) (s : State) : (commitCnt c s).rules = s.rules := rfl
@[simp] theorem commitCnt_tbl (c : Nat) (s : State) : (commitCnt c s).tbl = s.tbl := rfl
@[simp] theorem commitCnt_hif (c : Nat) (s : State) : (commitCnt c s).hif = s.hif := rfl
@[simp] theorem commitCnt_tm (c : Nat) (s : State) : (commitCnt c s).tm = s.tm := rfl
@[simp] theorem commitCnt_sec (c : Nat) (s : State) : (commitCnt c s).sec = s.sec := rfl
@[simp] theorem commitCnt_img (c : Nat) (s : State) : (commitCnt c s).img = s.img := rfl
@[simp] theorem commitCnt_insSt (c : Nat) (s : State) : (commitCnt c s).insSt = s.insSt := rfl
@[simp] theorem commitCnt_ctl (c : Nat) (s : State) : (commitCnt c s).ctl = s.ctl := rfl
@[simp] theorem commitCnt_load (c : Nat) (s : State) : (commitCnt c s).load = s.load := rfl
@[simp] theorem commitCnt_boot (c : Nat) (s : State) : (commitCnt c s).boot = s.boot := rfl
@[simp] theorem commitCnt_hb (c : Nat) (s : State) : (commitCnt c s).hb = s.hb := rfl
@[simp] theorem commitCnt_dram (c : Nat) (s : State) : (commitCnt c s).dram = s.dram := rfl
@[simp] theorem commitCnt_dmc (c : Nat) (s : State) : (commitCnt c s).dmc = s.dmc := rfl
@[simp] theorem commitCnt_outs (c : Nat) (s : State) : (commitCnt c s).outs = s.outs := rfl
@[simp] theorem commitCnt_free (c : Nat) (s : State) : (commitCnt c s).free = s.free := rfl
@[simp] theorem commitCnt_pending (c : Nat) (s : State) : (commitCnt c s).pending = s.pending := rfl

@[simp] theorem setPkt_regs (c : Nat) (p : Pkt) (s : State) : (setPkt c p s).regs = s.regs := rfl
@[simp] theorem setPkt_jnl (c : Nat) (p : Pkt) (s : State) : (setPkt c p s).jnl = s.jnl := rfl
@[simp] theorem setPkt_mram (c : Nat) (p : Pkt) (s : State) : (setPkt c p s).mram = s.mram := rfl
@[simp] theorem setPkt_clk (c : Nat) (p : Pkt) (s : State) : (setPkt c p s).clk = s.clk := rfl
@[simp] theorem setPkt_cores (c : Nat) (p : Pkt) (s : State) : (setPkt c p s).cores = s.cores := rfl
@[simp] theorem setPkt_cpx (c : Nat) (p : Pkt) (s : State) : (setPkt c p s).cpx = s.cpx := rfl
@[simp] theorem setPkt_lck (c : Nat) (p : Pkt) (s : State) : (setPkt c p s).lck = s.lck := rfl
@[simp] theorem setPkt_bpm (c : Nat) (p : Pkt) (s : State) : (setPkt c p s).bpm = s.bpm := rfl
@[simp] theorem setPkt_port (c : Nat) (p : Pkt) (s : State) : (setPkt c p s).port = s.port := rfl
@[simp] theorem setPkt_rules (c : Nat) (p : Pkt) (s : State) : (setPkt c p s).rules = s.rules := rfl
@[simp] theorem setPkt_tbl (c : Nat) (p : Pkt) (s : State) : (setPkt c p s).tbl = s.tbl := rfl
@[simp] theorem setPkt_hif (c : Nat) (p : Pkt) (s : State) : (setPkt c p s).hif = s.hif := rfl
@[simp] theorem setPkt_tm (c : Nat) (p : Pkt) (s : State) : (setPkt c p s).tm = s.tm := rfl
@[simp] theorem setPkt_sec (c : Nat) (p : Pkt) (s : State) : (setPkt c p s).sec = s.sec := rfl
@[simp] theorem setPkt_img (c : Nat) (p : Pkt) (s : State) : (setPkt c p s).img = s.img := rfl
@[simp] theorem setPkt_insSt (c : Nat) (p : Pkt) (s : State) : (setPkt c p s).insSt = s.insSt := rfl
@[simp] theorem setPkt_ctl (c : Nat) (p : Pkt) (s : State) : (setPkt c p s).ctl = s.ctl := rfl
@[simp] theorem setPkt_load (c : Nat) (p : Pkt) (s : State) : (setPkt c p s).load = s.load := rfl
@[simp] theorem setPkt_boot (c : Nat) (p : Pkt) (s : State) : (setPkt c p s).boot = s.boot := rfl
@[simp] theorem setPkt_hb (c : Nat) (p : Pkt) (s : State) : (setPkt c p s).hb = s.hb := rfl
@[simp] theorem setPkt_dram (c : Nat) (p : Pkt) (s : State) : (setPkt c p s).dram = s.dram := rfl
@[simp] theorem setPkt_dmc (c : Nat) (p : Pkt) (s : State) : (setPkt c p s).dmc = s.dmc := rfl
@[simp] theorem setPkt_outs (c : Nat) (p : Pkt) (s : State) : (setPkt c p s).outs = s.outs := rfl
@[simp] theorem setPkt_free (c : Nat) (p : Pkt) (s : State) : (setPkt c p s).free = s.free := rfl
@[simp] theorem setPkt_pending (c : Nat) (p : Pkt) (s : State) : (setPkt c p s).pending = s.pending := rfl

@[simp] theorem setCtx_regs (x : Nat) (c : Ctx) (s : State) : (setCtx x c s).regs = s.regs := rfl
@[simp] theorem setCtx_jnl (x : Nat) (c : Ctx) (s : State) : (setCtx x c s).jnl = s.jnl := rfl
@[simp] theorem setCtx_mram (x : Nat) (c : Ctx) (s : State) : (setCtx x c s).mram = s.mram := rfl
@[simp] theorem setCtx_clk (x : Nat) (c : Ctx) (s : State) : (setCtx x c s).clk = s.clk := rfl
@[simp] theorem setCtx_cores (x : Nat) (c : Ctx) (s : State) : (setCtx x c s).cores = s.cores := rfl
@[simp] theorem setCtx_cpx (x : Nat) (c : Ctx) (s : State) : (setCtx x c s).cpx = s.cpx := rfl
@[simp] theorem setCtx_lck (x : Nat) (c : Ctx) (s : State) : (setCtx x c s).lck = s.lck := rfl
@[simp] theorem setCtx_bpm (x : Nat) (c : Ctx) (s : State) : (setCtx x c s).bpm = s.bpm := rfl
@[simp] theorem setCtx_port (x : Nat) (c : Ctx) (s : State) : (setCtx x c s).port = s.port := rfl
@[simp] theorem setCtx_rules (x : Nat) (c : Ctx) (s : State) : (setCtx x c s).rules = s.rules := rfl
@[simp] theorem setCtx_tbl (x : Nat) (c : Ctx) (s : State) : (setCtx x c s).tbl = s.tbl := rfl
@[simp] theorem setCtx_hif (x : Nat) (c : Ctx) (s : State) : (setCtx x c s).hif = s.hif := rfl
@[simp] theorem setCtx_tm (x : Nat) (c : Ctx) (s : State) : (setCtx x c s).tm = s.tm := rfl
@[simp] theorem setCtx_sec (x : Nat) (c : Ctx) (s : State) : (setCtx x c s).sec = s.sec := rfl
@[simp] theorem setCtx_img (x : Nat) (c : Ctx) (s : State) : (setCtx x c s).img = s.img := rfl
@[simp] theorem setCtx_insSt (x : Nat) (c : Ctx) (s : State) : (setCtx x c s).insSt = s.insSt := rfl
@[simp] theorem setCtx_ctl (x : Nat) (c : Ctx) (s : State) : (setCtx x c s).ctl = s.ctl := rfl
@[simp] theorem setCtx_load (x : Nat) (c : Ctx) (s : State) : (setCtx x c s).load = s.load := rfl
@[simp] theorem setCtx_boot (x : Nat) (c : Ctx) (s : State) : (setCtx x c s).boot = s.boot := rfl
@[simp] theorem setCtx_hb (x : Nat) (c : Ctx) (s : State) : (setCtx x c s).hb = s.hb := rfl
@[simp] theorem setCtx_dram (x : Nat) (c : Ctx) (s : State) : (setCtx x c s).dram = s.dram := rfl
@[simp] theorem setCtx_dmc (x : Nat) (c : Ctx) (s : State) : (setCtx x c s).dmc = s.dmc := rfl
@[simp] theorem setCtx_outs (x : Nat) (c : Ctx) (s : State) : (setCtx x c s).outs = s.outs := rfl
@[simp] theorem setCtx_free (x : Nat) (c : Ctx) (s : State) : (setCtx x c s).free = s.free := rfl
@[simp] theorem setCtx_pending (x : Nat) (c : Ctx) (s : State) : (setCtx x c s).pending = s.pending := rfl

@[simp] theorem setItem_regs (e : Nat) (i : Item) (s : State) : (setItem e i s).regs = s.regs := rfl
@[simp] theorem setItem_jnl (e : Nat) (i : Item) (s : State) : (setItem e i s).jnl = s.jnl := rfl
@[simp] theorem setItem_mram (e : Nat) (i : Item) (s : State) : (setItem e i s).mram = s.mram := rfl
@[simp] theorem setItem_clk (e : Nat) (i : Item) (s : State) : (setItem e i s).clk = s.clk := rfl
@[simp] theorem setItem_cores (e : Nat) (i : Item) (s : State) : (setItem e i s).cores = s.cores := rfl
@[simp] theorem setItem_cpx (e : Nat) (i : Item) (s : State) : (setItem e i s).cpx = s.cpx := rfl
@[simp] theorem setItem_lck (e : Nat) (i : Item) (s : State) : (setItem e i s).lck = s.lck := rfl
@[simp] theorem setItem_bpm (e : Nat) (i : Item) (s : State) : (setItem e i s).bpm = s.bpm := rfl
@[simp] theorem setItem_port (e : Nat) (i : Item) (s : State) : (setItem e i s).port = s.port := rfl
@[simp] theorem setItem_rules (e : Nat) (i : Item) (s : State) : (setItem e i s).rules = s.rules := rfl
@[simp] theorem setItem_tbl (e : Nat) (i : Item) (s : State) : (setItem e i s).tbl = s.tbl := rfl
@[simp] theorem setItem_hif (e : Nat) (i : Item) (s : State) : (setItem e i s).hif = s.hif := rfl
@[simp] theorem setItem_tm (e : Nat) (i : Item) (s : State) : (setItem e i s).tm = s.tm := rfl
@[simp] theorem setItem_sec (e : Nat) (i : Item) (s : State) : (setItem e i s).sec = s.sec := rfl
@[simp] theorem setItem_img (e : Nat) (i : Item) (s : State) : (setItem e i s).img = s.img := rfl
@[simp] theorem setItem_insSt (e : Nat) (i : Item) (s : State) : (setItem e i s).insSt = s.insSt := rfl
@[simp] theorem setItem_ctl (e : Nat) (i : Item) (s : State) : (setItem e i s).ctl = s.ctl := rfl
@[simp] theorem setItem_load (e : Nat) (i : Item) (s : State) : (setItem e i s).load = s.load := rfl
@[simp] theorem setItem_boot (e : Nat) (i : Item) (s : State) : (setItem e i s).boot = s.boot := rfl
@[simp] theorem setItem_hb (e : Nat) (i : Item) (s : State) : (setItem e i s).hb = s.hb := rfl
@[simp] theorem setItem_dram (e : Nat) (i : Item) (s : State) : (setItem e i s).dram = s.dram := rfl
@[simp] theorem setItem_dmc (e : Nat) (i : Item) (s : State) : (setItem e i s).dmc = s.dmc := rfl
@[simp] theorem setItem_outs (e : Nat) (i : Item) (s : State) : (setItem e i s).outs = s.outs := rfl
@[simp] theorem setItem_free (e : Nat) (i : Item) (s : State) : (setItem e i s).free = s.free := rfl
@[simp] theorem setItem_pending (e : Nat) (i : Item) (s : State) : (setItem e i s).pending = s.pending := rfl

@[simp] theorem setIns_regs (i : Nat) (x : InsSt) (s : State) : (setIns i x s).regs = s.regs := rfl
@[simp] theorem setIns_jnl (i : Nat) (x : InsSt) (s : State) : (setIns i x s).jnl = s.jnl := rfl
@[simp] theorem setIns_mram (i : Nat) (x : InsSt) (s : State) : (setIns i x s).mram = s.mram := rfl
@[simp] theorem setIns_clk (i : Nat) (x : InsSt) (s : State) : (setIns i x s).clk = s.clk := rfl
@[simp] theorem setIns_cores (i : Nat) (x : InsSt) (s : State) : (setIns i x s).cores = s.cores := rfl
@[simp] theorem setIns_cpx (i : Nat) (x : InsSt) (s : State) : (setIns i x s).cpx = s.cpx := rfl
@[simp] theorem setIns_lck (i : Nat) (x : InsSt) (s : State) : (setIns i x s).lck = s.lck := rfl
@[simp] theorem setIns_bpm (i : Nat) (x : InsSt) (s : State) : (setIns i x s).bpm = s.bpm := rfl
@[simp] theorem setIns_dsp (i : Nat) (x : InsSt) (s : State) : (setIns i x s).dsp = s.dsp := rfl
@[simp] theorem setIns_port (i : Nat) (x : InsSt) (s : State) : (setIns i x s).port = s.port := rfl
@[simp] theorem setIns_rules (i : Nat) (x : InsSt) (s : State) : (setIns i x s).rules = s.rules := rfl
@[simp] theorem setIns_tbl (i : Nat) (x : InsSt) (s : State) : (setIns i x s).tbl = s.tbl := rfl
@[simp] theorem setIns_hif (i : Nat) (x : InsSt) (s : State) : (setIns i x s).hif = s.hif := rfl
@[simp] theorem setIns_tm (i : Nat) (x : InsSt) (s : State) : (setIns i x s).tm = s.tm := rfl
@[simp] theorem setIns_sec (i : Nat) (x : InsSt) (s : State) : (setIns i x s).sec = s.sec := rfl
@[simp] theorem setIns_img (i : Nat) (x : InsSt) (s : State) : (setIns i x s).img = s.img := rfl
@[simp] theorem setIns_ctl (i : Nat) (x : InsSt) (s : State) : (setIns i x s).ctl = s.ctl := rfl
@[simp] theorem setIns_load (i : Nat) (x : InsSt) (s : State) : (setIns i x s).load = s.load := rfl
@[simp] theorem setIns_boot (i : Nat) (x : InsSt) (s : State) : (setIns i x s).boot = s.boot := rfl
@[simp] theorem setIns_hb (i : Nat) (x : InsSt) (s : State) : (setIns i x s).hb = s.hb := rfl
@[simp] theorem setIns_dram (i : Nat) (x : InsSt) (s : State) : (setIns i x s).dram = s.dram := rfl
@[simp] theorem setIns_dmc (i : Nat) (x : InsSt) (s : State) : (setIns i x s).dmc = s.dmc := rfl
@[simp] theorem setIns_outs (i : Nat) (x : InsSt) (s : State) : (setIns i x s).outs = s.outs := rfl
@[simp] theorem setIns_free (i : Nat) (x : InsSt) (s : State) : (setIns i x s).free = s.free := rfl
@[simp] theorem setIns_pending (i : Nat) (x : InsSt) (s : State) : (setIns i x s).pending = s.pending := rfl

@[simp] theorem setRing_regs (f k : Nat) (x : Ring) (s : State) : (setRing f k x s).regs = s.regs := rfl
@[simp] theorem setRing_jnl (f k : Nat) (x : Ring) (s : State) : (setRing f k x s).jnl = s.jnl := rfl
@[simp] theorem setRing_mram (f k : Nat) (x : Ring) (s : State) : (setRing f k x s).mram = s.mram := rfl
@[simp] theorem setRing_clk (f k : Nat) (x : Ring) (s : State) : (setRing f k x s).clk = s.clk := rfl
@[simp] theorem setRing_cores (f k : Nat) (x : Ring) (s : State) : (setRing f k x s).cores = s.cores := rfl
@[simp] theorem setRing_cpx (f k : Nat) (x : Ring) (s : State) : (setRing f k x s).cpx = s.cpx := rfl
@[simp] theorem setRing_lck (f k : Nat) (x : Ring) (s : State) : (setRing f k x s).lck = s.lck := rfl
@[simp] theorem setRing_bpm (f k : Nat) (x : Ring) (s : State) : (setRing f k x s).bpm = s.bpm := rfl
@[simp] theorem setRing_dsp (f k : Nat) (x : Ring) (s : State) : (setRing f k x s).dsp = s.dsp := rfl
@[simp] theorem setRing_port (f k : Nat) (x : Ring) (s : State) : (setRing f k x s).port = s.port := rfl
@[simp] theorem setRing_rules (f k : Nat) (x : Ring) (s : State) : (setRing f k x s).rules = s.rules := rfl
@[simp] theorem setRing_tbl (f k : Nat) (x : Ring) (s : State) : (setRing f k x s).tbl = s.tbl := rfl
@[simp] theorem setRing_tm (f k : Nat) (x : Ring) (s : State) : (setRing f k x s).tm = s.tm := rfl
@[simp] theorem setRing_sec (f k : Nat) (x : Ring) (s : State) : (setRing f k x s).sec = s.sec := rfl
@[simp] theorem setRing_img (f k : Nat) (x : Ring) (s : State) : (setRing f k x s).img = s.img := rfl
@[simp] theorem setRing_insSt (f k : Nat) (x : Ring) (s : State) : (setRing f k x s).insSt = s.insSt := rfl
@[simp] theorem setRing_ctl (f k : Nat) (x : Ring) (s : State) : (setRing f k x s).ctl = s.ctl := rfl
@[simp] theorem setRing_load (f k : Nat) (x : Ring) (s : State) : (setRing f k x s).load = s.load := rfl
@[simp] theorem setRing_boot (f k : Nat) (x : Ring) (s : State) : (setRing f k x s).boot = s.boot := rfl
@[simp] theorem setRing_hb (f k : Nat) (x : Ring) (s : State) : (setRing f k x s).hb = s.hb := rfl
@[simp] theorem setRing_dram (f k : Nat) (x : Ring) (s : State) : (setRing f k x s).dram = s.dram := rfl
@[simp] theorem setRing_dmc (f k : Nat) (x : Ring) (s : State) : (setRing f k x s).dmc = s.dmc := rfl
@[simp] theorem setRing_outs (f k : Nat) (x : Ring) (s : State) : (setRing f k x s).outs = s.outs := rfl
@[simp] theorem setRing_free (f k : Nat) (x : Ring) (s : State) : (setRing f k x s).free = s.free := rfl
@[simp] theorem setRing_pending (f k : Nat) (x : Ring) (s : State) : (setRing f k x s).pending = s.pending := rfl

@[simp] theorem setCpx_regs (k u x : Nat) (c : CpxCtx) (s : State) : (setCpx k u x c s).regs = s.regs := rfl
@[simp] theorem setCpx_jnl (k u x : Nat) (c : CpxCtx) (s : State) : (setCpx k u x c s).jnl = s.jnl := rfl
@[simp] theorem setCpx_mram (k u x : Nat) (c : CpxCtx) (s : State) : (setCpx k u x c s).mram = s.mram := rfl
@[simp] theorem setCpx_clk (k u x : Nat) (c : CpxCtx) (s : State) : (setCpx k u x c s).clk = s.clk := rfl
@[simp] theorem setCpx_cores (k u x : Nat) (c : CpxCtx) (s : State) : (setCpx k u x c s).cores = s.cores := rfl
@[simp] theorem setCpx_lck (k u x : Nat) (c : CpxCtx) (s : State) : (setCpx k u x c s).lck = s.lck := rfl
@[simp] theorem setCpx_bpm (k u x : Nat) (c : CpxCtx) (s : State) : (setCpx k u x c s).bpm = s.bpm := rfl
@[simp] theorem setCpx_dsp (k u x : Nat) (c : CpxCtx) (s : State) : (setCpx k u x c s).dsp = s.dsp := rfl
@[simp] theorem setCpx_port (k u x : Nat) (c : CpxCtx) (s : State) : (setCpx k u x c s).port = s.port := rfl
@[simp] theorem setCpx_rules (k u x : Nat) (c : CpxCtx) (s : State) : (setCpx k u x c s).rules = s.rules := rfl
@[simp] theorem setCpx_tbl (k u x : Nat) (c : CpxCtx) (s : State) : (setCpx k u x c s).tbl = s.tbl := rfl
@[simp] theorem setCpx_hif (k u x : Nat) (c : CpxCtx) (s : State) : (setCpx k u x c s).hif = s.hif := rfl
@[simp] theorem setCpx_tm (k u x : Nat) (c : CpxCtx) (s : State) : (setCpx k u x c s).tm = s.tm := rfl
@[simp] theorem setCpx_sec (k u x : Nat) (c : CpxCtx) (s : State) : (setCpx k u x c s).sec = s.sec := rfl
@[simp] theorem setCpx_img (k u x : Nat) (c : CpxCtx) (s : State) : (setCpx k u x c s).img = s.img := rfl
@[simp] theorem setCpx_insSt (k u x : Nat) (c : CpxCtx) (s : State) : (setCpx k u x c s).insSt = s.insSt := rfl
@[simp] theorem setCpx_ctl (k u x : Nat) (c : CpxCtx) (s : State) : (setCpx k u x c s).ctl = s.ctl := rfl
@[simp] theorem setCpx_load (k u x : Nat) (c : CpxCtx) (s : State) : (setCpx k u x c s).load = s.load := rfl
@[simp] theorem setCpx_boot (k u x : Nat) (c : CpxCtx) (s : State) : (setCpx k u x c s).boot = s.boot := rfl
@[simp] theorem setCpx_hb (k u x : Nat) (c : CpxCtx) (s : State) : (setCpx k u x c s).hb = s.hb := rfl
@[simp] theorem setCpx_dram (k u x : Nat) (c : CpxCtx) (s : State) : (setCpx k u x c s).dram = s.dram := rfl
@[simp] theorem setCpx_dmc (k u x : Nat) (c : CpxCtx) (s : State) : (setCpx k u x c s).dmc = s.dmc := rfl
@[simp] theorem setCpx_outs (k u x : Nat) (c : CpxCtx) (s : State) : (setCpx k u x c s).outs = s.outs := rfl
@[simp] theorem setCpx_free (k u x : Nat) (c : CpxCtx) (s : State) : (setCpx k u x c s).free = s.free := rfl
@[simp] theorem setCpx_pending (k u x : Nat) (c : CpxCtx) (s : State) : (setCpx k u x c s).pending = s.pending := rfl

@[simp] theorem setLock_regs (n : Nat) (l : Lock) (s : State) : (setLock n l s).regs = s.regs := rfl
@[simp] theorem setLock_jnl (n : Nat) (l : Lock) (s : State) : (setLock n l s).jnl = s.jnl := rfl
@[simp] theorem setLock_mram (n : Nat) (l : Lock) (s : State) : (setLock n l s).mram = s.mram := rfl
@[simp] theorem setLock_clk (n : Nat) (l : Lock) (s : State) : (setLock n l s).clk = s.clk := rfl
@[simp] theorem setLock_cores (n : Nat) (l : Lock) (s : State) : (setLock n l s).cores = s.cores := rfl
@[simp] theorem setLock_cpx (n : Nat) (l : Lock) (s : State) : (setLock n l s).cpx = s.cpx := rfl
@[simp] theorem setLock_bpm (n : Nat) (l : Lock) (s : State) : (setLock n l s).bpm = s.bpm := rfl
@[simp] theorem setLock_dsp (n : Nat) (l : Lock) (s : State) : (setLock n l s).dsp = s.dsp := rfl
@[simp] theorem setLock_port (n : Nat) (l : Lock) (s : State) : (setLock n l s).port = s.port := rfl
@[simp] theorem setLock_rules (n : Nat) (l : Lock) (s : State) : (setLock n l s).rules = s.rules := rfl
@[simp] theorem setLock_tbl (n : Nat) (l : Lock) (s : State) : (setLock n l s).tbl = s.tbl := rfl
@[simp] theorem setLock_hif (n : Nat) (l : Lock) (s : State) : (setLock n l s).hif = s.hif := rfl
@[simp] theorem setLock_tm (n : Nat) (l : Lock) (s : State) : (setLock n l s).tm = s.tm := rfl
@[simp] theorem setLock_sec (n : Nat) (l : Lock) (s : State) : (setLock n l s).sec = s.sec := rfl
@[simp] theorem setLock_img (n : Nat) (l : Lock) (s : State) : (setLock n l s).img = s.img := rfl
@[simp] theorem setLock_insSt (n : Nat) (l : Lock) (s : State) : (setLock n l s).insSt = s.insSt := rfl
@[simp] theorem setLock_ctl (n : Nat) (l : Lock) (s : State) : (setLock n l s).ctl = s.ctl := rfl
@[simp] theorem setLock_load (n : Nat) (l : Lock) (s : State) : (setLock n l s).load = s.load := rfl
@[simp] theorem setLock_boot (n : Nat) (l : Lock) (s : State) : (setLock n l s).boot = s.boot := rfl
@[simp] theorem setLock_hb (n : Nat) (l : Lock) (s : State) : (setLock n l s).hb = s.hb := rfl
@[simp] theorem setLock_dram (n : Nat) (l : Lock) (s : State) : (setLock n l s).dram = s.dram := rfl
@[simp] theorem setLock_dmc (n : Nat) (l : Lock) (s : State) : (setLock n l s).dmc = s.dmc := rfl
@[simp] theorem setLock_outs (n : Nat) (l : Lock) (s : State) : (setLock n l s).outs = s.outs := rfl
@[simp] theorem setLock_free (n : Nat) (l : Lock) (s : State) : (setLock n l s).free = s.free := rfl
@[simp] theorem setLock_pending (n : Nat) (l : Lock) (s : State) : (setLock n l s).pending = s.pending := rfl

@[simp] theorem setDsub_regs (k : Nat) (d : DSub) (s : State) : (setDsub k d s).regs = s.regs := rfl
@[simp] theorem setDsub_jnl (k : Nat) (d : DSub) (s : State) : (setDsub k d s).jnl = s.jnl := rfl
@[simp] theorem setDsub_mram (k : Nat) (d : DSub) (s : State) : (setDsub k d s).mram = s.mram := rfl
@[simp] theorem setDsub_clk (k : Nat) (d : DSub) (s : State) : (setDsub k d s).clk = s.clk := rfl
@[simp] theorem setDsub_cores (k : Nat) (d : DSub) (s : State) : (setDsub k d s).cores = s.cores := rfl
@[simp] theorem setDsub_cpx (k : Nat) (d : DSub) (s : State) : (setDsub k d s).cpx = s.cpx := rfl
@[simp] theorem setDsub_lck (k : Nat) (d : DSub) (s : State) : (setDsub k d s).lck = s.lck := rfl
@[simp] theorem setDsub_bpm (k : Nat) (d : DSub) (s : State) : (setDsub k d s).bpm = s.bpm := rfl
@[simp] theorem setDsub_dsp (k : Nat) (d : DSub) (s : State) : (setDsub k d s).dsp = s.dsp := rfl
@[simp] theorem setDsub_port (k : Nat) (d : DSub) (s : State) : (setDsub k d s).port = s.port := rfl
@[simp] theorem setDsub_rules (k : Nat) (d : DSub) (s : State) : (setDsub k d s).rules = s.rules := rfl
@[simp] theorem setDsub_tbl (k : Nat) (d : DSub) (s : State) : (setDsub k d s).tbl = s.tbl := rfl
@[simp] theorem setDsub_hif (k : Nat) (d : DSub) (s : State) : (setDsub k d s).hif = s.hif := rfl
@[simp] theorem setDsub_tm (k : Nat) (d : DSub) (s : State) : (setDsub k d s).tm = s.tm := rfl
@[simp] theorem setDsub_sec (k : Nat) (d : DSub) (s : State) : (setDsub k d s).sec = s.sec := rfl
@[simp] theorem setDsub_img (k : Nat) (d : DSub) (s : State) : (setDsub k d s).img = s.img := rfl
@[simp] theorem setDsub_insSt (k : Nat) (d : DSub) (s : State) : (setDsub k d s).insSt = s.insSt := rfl
@[simp] theorem setDsub_ctl (k : Nat) (d : DSub) (s : State) : (setDsub k d s).ctl = s.ctl := rfl
@[simp] theorem setDsub_load (k : Nat) (d : DSub) (s : State) : (setDsub k d s).load = s.load := rfl
@[simp] theorem setDsub_boot (k : Nat) (d : DSub) (s : State) : (setDsub k d s).boot = s.boot := rfl
@[simp] theorem setDsub_hb (k : Nat) (d : DSub) (s : State) : (setDsub k d s).hb = s.hb := rfl
@[simp] theorem setDsub_dram (k : Nat) (d : DSub) (s : State) : (setDsub k d s).dram = s.dram := rfl
@[simp] theorem setDsub_outs (k : Nat) (d : DSub) (s : State) : (setDsub k d s).outs = s.outs := rfl
@[simp] theorem setDsub_free (k : Nat) (d : DSub) (s : State) : (setDsub k d s).free = s.free := rfl
@[simp] theorem setDsub_pending (k : Nat) (d : DSub) (s : State) : (setDsub k d s).pending = s.pending := rfl

@[simp] theorem dramWr_regs (a : Nat) (l : List Byte) (s : State) : (dramWr a l s).regs = s.regs := rfl
@[simp] theorem dramWr_jnl (a : Nat) (l : List Byte) (s : State) : (dramWr a l s).jnl = s.jnl := rfl
@[simp] theorem dramWr_mram (a : Nat) (l : List Byte) (s : State) : (dramWr a l s).mram = s.mram := rfl
@[simp] theorem dramWr_clk (a : Nat) (l : List Byte) (s : State) : (dramWr a l s).clk = s.clk := rfl
@[simp] theorem dramWr_cores (a : Nat) (l : List Byte) (s : State) : (dramWr a l s).cores = s.cores := rfl
@[simp] theorem dramWr_cpx (a : Nat) (l : List Byte) (s : State) : (dramWr a l s).cpx = s.cpx := rfl
@[simp] theorem dramWr_lck (a : Nat) (l : List Byte) (s : State) : (dramWr a l s).lck = s.lck := rfl
@[simp] theorem dramWr_bpm (a : Nat) (l : List Byte) (s : State) : (dramWr a l s).bpm = s.bpm := rfl
@[simp] theorem dramWr_dsp (a : Nat) (l : List Byte) (s : State) : (dramWr a l s).dsp = s.dsp := rfl
@[simp] theorem dramWr_port (a : Nat) (l : List Byte) (s : State) : (dramWr a l s).port = s.port := rfl
@[simp] theorem dramWr_rules (a : Nat) (l : List Byte) (s : State) : (dramWr a l s).rules = s.rules := rfl
@[simp] theorem dramWr_tbl (a : Nat) (l : List Byte) (s : State) : (dramWr a l s).tbl = s.tbl := rfl
@[simp] theorem dramWr_hif (a : Nat) (l : List Byte) (s : State) : (dramWr a l s).hif = s.hif := rfl
@[simp] theorem dramWr_tm (a : Nat) (l : List Byte) (s : State) : (dramWr a l s).tm = s.tm := rfl
@[simp] theorem dramWr_sec (a : Nat) (l : List Byte) (s : State) : (dramWr a l s).sec = s.sec := rfl
@[simp] theorem dramWr_img (a : Nat) (l : List Byte) (s : State) : (dramWr a l s).img = s.img := rfl
@[simp] theorem dramWr_insSt (a : Nat) (l : List Byte) (s : State) : (dramWr a l s).insSt = s.insSt := rfl
@[simp] theorem dramWr_ctl (a : Nat) (l : List Byte) (s : State) : (dramWr a l s).ctl = s.ctl := rfl
@[simp] theorem dramWr_load (a : Nat) (l : List Byte) (s : State) : (dramWr a l s).load = s.load := rfl
@[simp] theorem dramWr_boot (a : Nat) (l : List Byte) (s : State) : (dramWr a l s).boot = s.boot := rfl
@[simp] theorem dramWr_hb (a : Nat) (l : List Byte) (s : State) : (dramWr a l s).hb = s.hb := rfl
@[simp] theorem dramWr_dmc (a : Nat) (l : List Byte) (s : State) : (dramWr a l s).dmc = s.dmc := rfl
@[simp] theorem dramWr_outs (a : Nat) (l : List Byte) (s : State) : (dramWr a l s).outs = s.outs := rfl
@[simp] theorem dramWr_free (a : Nat) (l : List Byte) (s : State) : (dramWr a l s).free = s.free := rfl
@[simp] theorem dramWr_pending (a : Nat) (l : List Byte) (s : State) : (dramWr a l s).pending = s.pending := rfl

/-- A fold of updates leaves alone what each of them leaves alone. -/
theorem foldS_keeps {α β : Type} (g : State → β) (f : α → State → State) (l : List α) (h : ∀ x ∈ l, ∀ s, g (f x s) = g s) (s : State) :
    g (foldS l f s) = g s := by
  induction l generalizing s with
  | nil => rfl
  | cons x t ih =>
    show g (foldS t f (f x s)) = g s
    rw [ih (fun y hy => h y (List.mem_cons_of_mem x hy)), h x List.mem_cons_self]

/-- A register word after a write. -/
theorem rv_rset (s : State) (k j : Nat) (w : Word) : rv (rset s k w) j = if j = k then w else rv s j := by
  unfold rv rset
  by_cases h : j = k <;> simp [mfind_mins, h]

@[simp] theorem rv_rset_self (s : State) (k : Nat) (w : Word) : rv (rset s k w) k = w := by simp [rv_rset]

theorem rv_rset_ne (s : State) {k j : Nat} (w : Word) (h : j ≠ k) : rv (rset s k w) j = rv s j := by simp [rv_rset, h]

/-- A register's word depends on nothing but the registers. -/
theorem rv_congr {s t : State} (h : t.regs.vals = s.regs.vals) (k : Nat) : rv t k = rv s k := by unfold rv; rw [h]

@[simp] theorem rv_blkMod (s : State) (b c : Nat) (f : BlkCopy → BlkCopy) (k : Nat) : rv (blkMod s b c f) k = rv s k := rfl
@[simp] theorem rv_cfgReject (b c : Nat) (s : State) (k : Nat) : rv (cfgReject b c s) k = rv s k := rfl
@[simp] theorem rv_emit (o : Out) (s : State) (k : Nat) : rv (emit o s) k = rv s k := rfl

/-- A register word after its range returned to reset (00 R16, 16 R436). -/
theorem rv_regsReset (a n : Nat) (s : State) (k : Nat) :
    rv (regsReset a n s) k = if a ≤ k ∧ k < a + n then resetWordAt (k % 67108864) else rv s k := by
  unfold rv regsReset
  by_cases h : a ≤ k ∧ k < a + n <;> simp [mfind_mclear, h]

/-- A block copy's header after a change. -/
theorem blkGet_blkMod (s : State) (b c x y : Nat) (f : BlkCopy → BlkCopy) :
    blkGet (blkMod s b c f) x y = if blkKey x y = blkKey b c then f (blkGet s b c) else blkGet s x y := by
  unfold blkGet blkMod
  simp only [mget_mmod]

/-- CFG_REJECT is set (R15). -/
theorem cfgReject_sets (b c : Nat) (s : State) : (blkGet (cfgReject b c s) b c).cfgReject = true := by
  unfold cfgReject
  simp [blkGet_blkMod]

/-- An instance's state after it is set. -/
theorem insState_setIns (i j : Nat) (x : InsSt) (s : State) : insState (setIns i x s) j = if j = i then x else insState s j := by
  unfold insState setIns
  simp only [mget_mput]

/-- A ring after it is replaced. -/
theorem ringOf_setRing (f r g q : Nat) (x : Ring) (s : State) :
    ringOf (setRing f r x s) g q = if g * 32 + q = f * 32 + r then x else ringOf s g q := by
  unfold ringOf setRing
  simp only [mget_mput]

/-- A packet after one is put. -/
theorem pktOf_setPkt (c d : Nat) (p : Pkt) (s : State) : pktOf (setPkt c p s) d = if d = c then some p else pktOf s d := by
  unfold pktOf setPkt
  simp only [mfind_mins]

/-- A lock after it is set. -/
theorem lockOf_setLock (n m : Nat) (l : Lock) (s : State) : lockOf (setLock n l s) m = if m = n then l else lockOf s m := by
  unfold lockOf setLock
  simp only [mget_mput]

/-- A command that a requester's register admits is carried out; another counts as an access error (20 R526). -/
theorem asked_admitted {r : Req} {off : Nat} {s : State} (h : access r off true s = none) (f : State → State) :
    asked r off f s = f s := by
  unfold asked
  rw [h]

theorem asked_refused {r : Req} {off c : Nat} {s : State} (h : access r off true s = some c) (f : State → State) :
    asked r off f s = accErr r c off s := by
  unfold asked
  rw [h]

end Sys2Proof.Machine
end

