-- ==== Sys2Proof/Laws/Erc.lean ====
section
/-! SUPPORT. What the journal and the error collector can change: one law per operation, which says of everything else that it stays. -/

namespace Sys2Proof.Machine

/-- Two states agree but for registers, the journal, MRAM, the host interface, what was sent, the heartbeat and the count of free values. -/
def ercOnly (s t : State) : Prop :=
  t = { s with regs := t.regs, jnl := t.jnl, mram := t.mram, hif := t.hif, outs := t.outs, hb := t.hb, free := t.free }

theorem ercOnly_refl (s : State) : ercOnly s s := rfl

theorem ercOnly_trans {a b c : State} (h : ercOnly a b) (g : ercOnly b c) : ercOnly a c := by
  unfold ercOnly at *
  rw [g, h]

theorem ercOnly_rset (s : State) (k : Nat) (w : Word) : ercOnly s (rset s k w) := rfl

theorem ercOnly_jnl (s : State) (j : Journal) : ercOnly s { s with jnl := j } := rfl

theorem ercOnly_mram (s : State) (m : Mram) : ercOnly s { s with mram := m } := rfl

theorem ercOnly_hbStop (s : State) : ercOnly s (hbStop s) := rfl

theorem ercOnly_cnt (k : Nat) (s : State) : ercOnly s (cnt k s) := rfl

/-- Staging words changes the journal alone. -/
theorem jnlStage_only (ws : List Nat) (s : State) : jnlStage ws s = { s with jnl := (jnlStage ws s).jnl } := by
  unfold jnlStage
  induction ws generalizing s with
  | nil => rfl
  | cons w t ih =>
    rw [List.foldl_cons, ih]

/-- A choice between a state and one that agrees with it. -/
theorem ercOnly_ite {c : Prop} [Decidable c] {s a b : State} (h : ercOnly s a) (g : ercOnly a b) : ercOnly s (if c then b else a) := by
  split
  · exact ercOnly_trans h g
  · exact h

theorem ercOnly_stage (ws : List Nat) (s : State) : ercOnly s (jnlStage ws s) := by
  unfold ercOnly
  rw [jnlStage_only]

/-- A journal record changes the journal and its count of lost records alone. -/
theorem jnlPut_only (p : Bool) (ws : List Nat) (s : State) : ercOnly s (jnlPut p ws s).1 := by
  unfold jnlPut
  simp only
  split
  · split
    · rfl
    · exact ercOnly_trans (by rfl) (ercOnly_stage _ _)
  · split
    · rfl
    · exact ercOnly_trans (by rfl) (ercOnly_stage _ _)

theorem jnlControl_only (k : Nat) (ws : List Nat) (s : State) : ercOnly s (jnlControl k ws s) := by
  unfold jnlControl
  split
  · exact jnlPut_only _ _ _
  · rfl

theorem jnlInput_only (k : Nat) (w : JWho) (ws : List Nat) (s : State) : ercOnly s (jnlInput k w ws s) := by
  unfold jnlInput jnlInputB
  split
  · simp only
    split
    · exact ercOnly_trans (jnlPut_only _ _ _) (ercOnly_cnt _ _)
    · exact jnlPut_only _ _ _
  · rfl

theorem trigWrite_only (ws : List Word) (s : State) : ercOnly s (trigWrite ws s) := rfl

/-- A trigger changes registers, the journal and the trigger index alone (18 R497, R498). -/
theorem jnlTrigger_only (k r : Nat) (d : Word) (s : State) : ercOnly s (jnlTrigger k r d s).1 := by
  unfold jnlTrigger
  split
  · exact ercOnly_trans (ercOnly_trans (ercOnly_trans (ercOnly_trans (jnlControl_only _ _ _) (trigWrite_only _ _))
      (ercOnly_jnl _ _)) (ercOnly_rset _ _ _)) (ercOnly_cnt _ _)
  · exact ercOnly_cnt _ _

theorem raiseMsix_only (f v : Nat) (s : State) : ercOnly s (raiseMsix f v s) := by
  unfold raiseMsix
  split <;> rfl

theorem jnlMasked_only (k : Nat) (s : State) : ercOnly s (jnlMasked k s) := by
  unfold jnlMasked drawWord
  split
  · exact ercOnly_trans (b := { s with free := s.free + 1 + 1 }) rfl (jnlTrigger_only _ _ _ _)
  · rfl

theorem ercNotify_only (src k : Nat) (s : State) : ercOnly s (ercNotify src k s) := by
  unfold ercNotify
  exact ercOnly_trans (ercOnly_ite (ercOnly_ite (ercOnly_ite (ercOnly_rset _ _ _) (ercOnly_mram _ _))
    (raiseMsix_only _ _ _)) (ercOnly_hbStop _)) (jnlMasked_only _ _)

theorem ercFill_only (src kind sev u loc : Nat) (i : Option Nat) (s : State) : ercOnly s (ercFill src kind sev u loc i s) := by
  unfold ercFill
  have h : ∀ {a : State} (k : Nat) (w : Word), ercOnly s a → ercOnly s (rset a k w) := fun k w g => ercOnly_trans g (ercOnly_rset _ k w)
  exact h _ _ (h _ _ (h _ _ (h _ _ (h _ _ (ercOnly_rset _ _ _)))))

/-- An error that reaches the collector changes nothing outside these parts (18 R484 to R486, R497, 19 R515). -/
theorem ercReport_only (src kind sev u loc : Nat) (i : Option Nat) (s : State) : ercOnly s (ercReport src kind sev u loc i s) := by
  unfold ercReport
  simp only
  split
  · split
    · exact ercOnly_trans (ercOnly_trans (ercOnly_cnt _ _) (ercOnly_rset _ _ _)) (ercNotify_only _ _ _)
    · exact ercOnly_trans (ercOnly_cnt _ _) (ercOnly_rset _ _ _)
  · exact ercOnly_trans (ercOnly_trans (ercOnly_cnt _ _) (ercFill_only _ _ _ _ _ _ _)) (ercNotify_only _ _ _)

end Sys2Proof.Machine
end

