-- ==== Sys2Proof/Laws/Petal.lean ====
section
/-! SUPPORT. What the shared wrapper of every Petal instruction does. -/

namespace Sys2Proof.Machine

@[simp] theorem thr_setThr_self (k : Nat) (t : Thread) (s : State) : thr (setThr k t s) k = t := by
  simp [thr, setThr]

theorem thr_setThr (k j : Nat) (t : Thread) (s : State) : thr (setThr k t s) j = if j = k then t else thr s j := by
  simp [thr, setThr, mget_mput]

@[simp] theorem thr_thrMod_self (k : Nat) (g : Thread → Thread) (s : State) : thr (thrMod k g s) k = g (thr s k) := by
  simp [thrMod]

theorem thr_thrMod_ne {k j : Nat} (g : Thread → Thread) (s : State) (h : j ≠ k) : thr (thrMod k g s) j = thr s j := by
  simp [thrMod, thr_setThr, h]

@[simp] theorem thr_commitCnt (c k : Nat) (s : State) : thr (commitCnt c s) k = thr s k := rfl

/-- The fall-through rule changes the PC and the loops alone. -/
theorem fallTo_eq (n next : Nat) (t : Thread) :
    fallTo n next t = { t with pc := (fallTo n next t).pc, lv := (fallTo n next t).lv, depth := (fallTo n next t).depth } := by
  induction n generalizing t with
  | zero => rfl
  | succ n ih =>
    simp only [fallTo]
    split
    · rfl
    · split
      · split
        · rfl
        · have := ih { t with depth := t.depth - 1 }
          rw [this]
      · rfl

theorem fallTo_congr (n next : Nat) {t u : Thread} (hl : t.lv = u.lv) (hd : t.depth = u.depth) :
    (fallTo n next t).pc = (fallTo n next u).pc ∧ (fallTo n next t).lv = (fallTo n next u).lv ∧
      (fallTo n next t).depth = (fallTo n next u).depth := by
  induction n generalizing t u with
  | zero => exact ⟨rfl, hl, hd⟩
  | succ n ih =>
    have hlv : ∀ k, lvOf t k = lvOf u k := fun k => by simp [lvOf, hl]
    simp only [fallTo, hd, hlv]
    split
    · rename_i h0
      exact ⟨rfl, hl, rfl⟩
    · split
      · split
        · exact ⟨rfl, by simp only [setLv, hl], hd⟩
        · exact ih hl rfl
      · exact ⟨rfl, hl, rfl⟩

/-- The fall-through rule looks at the loops alone. -/
theorem advance_congr (next : Nat) {t u : Thread} (hl : t.lv = u.lv) (hd : t.depth = u.depth) :
    (advance next t).pc = (advance next u).pc ∧ (advance next t).lv = (advance next u).lv ∧
      (advance next t).depth = (advance next u).depth := fallTo_congr 4 next hl hd

/-- Two states that agree but for their threads and commit counts. -/
def agreesBut (s s' : State) : Prop := ∃ T C, s' = { s with cores := { s.cores with thr := T, commits := C } }

theorem agreesBut_refl (s : State) : agreesBut s s := ⟨_, _, rfl⟩

theorem agreesBut_setThr {s s' : State} (h : agreesBut s s') (k : Nat) (t : Thread) : agreesBut s (setThr k t s') := by
  obtain ⟨T, C, rfl⟩ := h
  exact ⟨_, _, rfl⟩

theorem agreesBut_commitCnt {s s' : State} (h : agreesBut s s') (c : Nat) : agreesBut s (commitCnt c s') := by
  obtain ⟨T, C, rfl⟩ := h
  exact ⟨_, _, rfl⟩

theorem agreesBut_eq {s s' : State} (h : agreesBut s s') :
    s' = { s with cores := { s.cores with thr := s'.cores.thr, commits := s'.cores.commits } } := by
  obtain ⟨T, C, rfl⟩ := h
  rfl

/-- The state in which an instruction's body runs. -/
def begun (th : Thr) (s : State) : State := issueAt (thrNo th) s

/-- The instruction's context of execution. -/
def pcx (op : POp) (th : Thr) (f : Form) (s : State) : PCx := issueCx op (thrNo th) th.core.val f (begun th s)

/-- The thread as it stands in that state. -/
def started (th : Thr) (s : State) : Thread := { thrOf th s with lastPc := (thrOf th s).pc }

theorem thr_begun (th : Thr) (s : State) : thr (begun th s) (thrNo th) = started th s := by
  simp [begun, issueAt, thrOf, started]

theorem pcx_t (op : POp) (th : Thr) (f : Form) (s : State) :
    (pcx op th f s).t = started th s := thr_begun th s

@[simp] theorem pcx_next (op : POp) (th : Thr) (f : Form) (s : State) : (pcx op th f s).next = nextPc op th f s := by
  show (thr (begun th s) (thrNo th)).pc + formLen op f = _
  rw [thr_begun]
  rfl

@[simp] theorem pcx_tid (op : POp) (th : Thr) (f : Form) (s : State) : (pcx op th f s).tid = thrNo th := rfl
@[simp] theorem pcx_f (op : POp) (th : Thr) (f : Form) (s : State) : (pcx op th f s).f = f := rfl
@[simp] theorem pcx_core (op : POp) (th : Thr) (f : Form) (s : State) : (pcx op th f s).core = th.core.val := rfl
@[simp] theorem pcx_plain (op : POp) (th : Thr) (f : Form) (s : State) : (pcx op th f s).plain = isPlain th s := rfl

@[simp] theorem pcx_val (op : POp) (th : Thr) (f : Form) (s : State) (r : Nat) : valR (pcx op th f s).t r = gval th s r := by
  rw [pcx_t]
  rfl

@[simp] theorem pcx_tag (op : POp) (th : Thr) (f : Form) (s : State) (r : Nat) :
    tagR (pcx op th f s).t r = tagR (thrOf th s) r := by
  rw [pcx_t]
  rfl

@[simp] theorem pcx_rd (op : POp) (th : Thr) (f : Form) (s : State) : (pcx op th f s).rd = f.rd.val := rfl
@[simp] theorem pcx_rs (op : POp) (th : Thr) (f : Form) (s : State) : (pcx op th f s).rs = f.rs.val := rfl
@[simp] theorem pcx_rt (op : POp) (th : Thr) (f : Form) (s : State) : (pcx op th f s).rt = f.rt.val := rfl
@[simp] theorem gval_rd (th : Thr) (f : Form) (s : State) : gval th s f.rd.val = (inRd th s f).v := rfl
@[simp] theorem gval_rs (th : Thr) (f : Form) (s : State) : gval th s f.rs.val = (inRs th s f).v := rfl
@[simp] theorem gval_rt (th : Thr) (f : Form) (s : State) : gval th s f.rt.val = (inRt th s f).v := rfl
@[simp] theorem tagR_rd (th : Thr) (f : Form) (s : State) : tagR (thrOf th s) f.rd.val = (inRd th s f).tag := rfl
@[simp] theorem tagR_rs (th : Thr) (f : Form) (s : State) : tagR (thrOf th s) f.rs.val = (inRs th s f).tag := rfl
@[simp] theorem tagR_rt (th : Thr) (f : Form) (s : State) : tagR (thrOf th s) f.rt.val = (inRt th s f).tag := rfl
@[simp] theorem valR_started (th : Thr) (s : State) (r : Nat) : valR (started th s) r = gval th s r := rfl
@[simp] theorem tagR_started (th : Thr) (s : State) (r : Nat) : tagR (started th s) r = tagR (thrOf th s) r := rfl
@[simp] theorem started_z (th : Thr) (s : State) : (started th s).z = (thrOf th s).z := rfl
@[simp] theorem started_n (th : Thr) (s : State) : (started th s).n = (thrOf th s).n := rfl
@[simp] theorem started_c (th : Thr) (s : State) : (started th s).c = (thrOf th s).c := rfl
@[simp] theorem started_v (th : Thr) (s : State) : (started th s).v = (thrOf th s).v := rfl
@[simp] theorem started_g (th : Thr) (s : State) : (started th s).g = (thrOf th s).g := rfl
@[simp] theorem started_flags (th : Thr) (s : State) : flags (started th s) = flags (thrOf th s) := rfl

/-- The operands of an instruction let it run. -/
def opnReady (th : Thr) (s : State) (o : Opn) : Prop :=
  arrived th s (o.reads ++ o.moves) ∧ clean th s o.reads ∧ (isPlain th s = true → clean th s o.moves) ∧
  (isPlain th s = true ∨ (o.ok (started th s) = true ∧
    (∀ r ∈ o.moves, tmOk (tagR (thrOf th s) r) = true) ∧ ∀ r ∈ o.dsts, tagR (thrOf th s) r ≠ tBUF))

/-- A body's answer is a commit of some kind or a wait, not a fault. -/
def PRes.fine : PRes → Bool
  | .flt _ _ _ => false
  | .hw _ _ => false
  | _ => true

theorem petal_fetched {op : POp} {th : Thr} {f : Form} {s : State} {opn : PCx → Opn} {body : PCx → State → PRes}
    (h : fetches op th f s) :
    petal op th f s opn body = petalChecks op (pcx op th f s) (begun th s) (opn (pcx op th f s)) body := by
  obtain ⟨h1, h2, h3, h4, h5, h6, h7⟩ := h
  unfold petal
  dsimp only
  simp only [thrOf, thrNo, nextPc] at h1 h2 h4 h5 h7
  rw [if_neg (by simp [h1]), if_neg (by simp [h2]), if_neg (by simp [h3]), if_neg (by simp [h4])]
  unfold petalFetch
  have e0 : (issueCx op (tidOf th.core.val th.thread.val) th.core.val f (issueAt (tidOf th.core.val th.thread.val) s)).t.pc =
      (thr s (tidOf th.core.val th.thread.val)).pc := by
    simp [issueCx, issueAt]
  have e1 : (issueCx op (tidOf th.core.val th.thread.val) th.core.val f (issueAt (tidOf th.core.val th.thread.val) s)).f = f := rfl
  dsimp only
  rw [e0, e1, if_neg (by omega), if_neg h6]
  have e2 : lineBad (issueAt (tidOf th.core.val th.thread.val) s) (clusterOf (issueAt (tidOf th.core.val th.thread.val) s)
    th.core.val) (thr s (tidOf th.core.val th.thread.val)).pc (formLen op f) = false := h7
  rw [if_neg]
  · rfl
  · show ¬(lineBad (issueAt (tidOf th.core.val th.thread.val) s) (clusterOf (issueAt (tidOf th.core.val th.thread.val) s)
      th.core.val) (thr s (tidOf th.core.val th.thread.val)).pc (formLen op f) = true)
    rw [e2]
    exact Bool.false_ne_true

theorem petalChecks_admitted {op : POp} {th : Thr} {f : Form} {s : State} {o : Opn} {body : PCx → State → PRes}
    (h : admitted op th f s) :
    petalChecks op (pcx op th f s) (begun th s) o body = petalExec (pcx op th f s) (begun th s) o body := by
  obtain ⟨h1, h2, h3, h4, h5, h6⟩ := h
  unfold petalChecks
  have e3 : isSup (begun th s) (thrNo th) = isSup s (thrNo th) := rfl
  have e4 : ∀ u, (unitsOf (begun th s) (clusterOf (begun th s) th.core.val)).testBit u =
      (unitsOf s (clusterOf s th.core.val)).testBit u := fun _ => rfl
  have e5 : petalWaits op (begun th s) = petalWaits op s := rfl
  have e6 : predHolds (pcx op th f s).t f = predHolds (thrOf th s) f := by rw [pcx_t]; rfl
  have e7 : (pcx op th f s).t.busy = (thrOf th s).busy := by rw [pcx_t]; rfl
  rw [pcx_f, pcx_next, pcx_tid, pcx_core, e3, e6, e7]
  rw [if_neg (by simp [h1]), if_neg, if_neg, if_neg, if_neg (by simp [h5]), if_neg (by simp [e5, h6])]
  · intro hc
    simp only [Bool.and_eq_true, Bool.or_eq_true, decide_eq_true_eq, List.contains_iff_mem] at hc
    exact h4 hc.1 hc.2
  · cases hu : petalUnit op f with
    | none => simp
    | some u => simp [e4, h3 u hu]
  · intro hc
    simp only [Bool.and_eq_true, Bool.not_eq_true'] at hc
    rw [h2 hc.1] at hc
    exact Bool.noConfusion hc.2

theorem petalExec_ready {op : POp} {th : Thr} {f : Form} {s : State} {o : Opn} {body : PCx → State → PRes}
    (h : opnReady th s o) (ha : admitted op th f s) (hc : inOrder th f s) (hf : (body (pcx op th f s) (begun th s)).fine = true) :
    petalExec (pcx op th f s) (begun th s) o body =
      petalFinish (pcx op th f s) (begun th s) (body (pcx op th f s) (begun th s)) := by
  obtain ⟨h1, h2, h3, h4⟩ := h
  unfold petalExec
  have e3 : (pcx op th f s).t.busy = (thrOf th s).busy := by rw [pcx_t]; rfl
  have e5 : o.ok (pcx op th f s).t = o.ok (started th s) := by rw [pcx_t]
  have e6 : coWaits (begun th s) (pcx op th f s).t = coWaits s (thrOf th s) := by rw [pcx_t]; rfl
  have n1 : (petalNeeds o f).any (fun r => (thrOf th s).busy.contains r) = false := by
    simp only [List.any_eq_false, List.contains_iff_mem, petalNeeds, List.mem_append]
    intro r hr
    rcases hr with hr | hr
    · exact h1 r (List.mem_append.mpr hr)
    · split at hr
      · rename_i hp
        rw [List.mem_singleton] at hr
        exact hr ▸ ha.2.2.2.1 (by simpa using hp)
      · exact absurd hr List.not_mem_nil
  have cl : ∀ l, clean th s l → l.any (fun r => r != 16 && tagR (thrOf th s) r == tPOISON) = false := by
    intro l hl
    simp only [List.any_eq_false, Bool.and_eq_true, bne_iff_ne, ne_eq, beq_iff_eq, not_and]
    exact fun r hr => hl r hr
  have n2 : (if isPlain th s = true then o.reads ++ o.moves else o.reads).any
      (fun r => r != 16 && tagR (thrOf th s) r == tPOISON) = false := by
    split
    · rename_i hp
      rw [List.any_append, cl _ h2, cl _ (h3 hp)]
      rfl
    · exact cl _ h2
  have n3 : (!isPlain th s && (!o.ok (started th s) ||
      o.moves.any (fun r => !tmOk (tagR (thrOf th s) r)) || o.dsts.any (fun r => tagR (thrOf th s) r == tBUF))) = false := by
    rcases h4 with hp | ⟨ho, hm, hd⟩
    · simp [hp]
    · simp only [ho, Bool.not_true, Bool.false_or, Bool.and_eq_false_iff, Bool.or_eq_false_iff]
      right
      exact ⟨by simpa using hm, by simpa using hd⟩
  have c1 : (f.co && coWaits s (thrOf th s)) = false := by
    cases hco : f.co
    · rfl
    · simp [hc hco]
  have m2 : (if (pcx op th f s).plain = true then o.reads ++ o.moves else o.reads).any
      (fun r => r != 16 && tagR (thrOf th s) r == tPOISON) = false := n2
  simp only [pcx_f, e3, pcx_tag, e5, e6]
  rw [n1, m2, pcx_plain, n3, c1]
  simp only [Bool.false_eq_true, if_false]
  cases hb : body (pcx op th f s) (begun th s) <;> first | rfl | (rw [hb] at hf; exact absurd hf Bool.false_ne_true)

/-- Everything the wrapper does with an instruction that goes ahead: its body's answer is carried out. -/
theorem petal_runs {op : POp} {th : Thr} {f : Form} {s : State} {opn : PCx → Opn} {body : PCx → State → PRes}
    (h : goesAhead op th f s) (ho : opnReady th s (opn (pcx op th f s)))
    (hf : (body (pcx op th f s) (begun th s)).fine = true) :
    petal op th f s opn body = petalFinish (pcx op th f s) (begun th s) (body (pcx op th f s) (begun th s)) := by
  rw [petal_fetched h.1, petalChecks_admitted h.2.1, petalExec_ready ho h.2.1 h.2.2 hf]

/-- A commit without a taken branch: the thread `u` the body left falls through, and nothing else changes. -/
theorem finish_ok {op : POp} {th : Thr} {f : Form} {s b s0 : State} {u : Thread} (hu : thr b (thrNo th) = u) (hs : u.step = 0) :
    thrOf th (petalFinish (pcx op th f s) s0 (.ok b)) = { advance (nextPc op th f s) u with bkSkip := false } ∧
    agreesBut b (petalFinish (pcx op th f s) s0 (.ok b)) ∧
    ∀ k, k ≠ thrNo th → thr (petalFinish (pcx op th f s) s0 (.ok b)) k = thr b k := by
  simp only [petalFinish, petalCommit]
  have st0 : (advance (nextPc op th f s) u).step = 0 := by
    rw [advance, fallTo_eq]
    exact hs
  simp only [pcx_tid, pcx_next, thr_commitCnt, thr_thrMod_self, hu, st0]
  simp only [Nat.zero_ne_one, decide_false, Bool.false_and, Bool.false_eq_true, if_false]
  refine ⟨?_, agreesBut_commitCnt (agreesBut_setThr (agreesBut_setThr (agreesBut_refl b) _ _) _ _) _, fun k hk => ?_⟩
  · simp only [thrOf, thr_commitCnt, thr_thrMod_self, hu]
    first | done | rw [st0] | rw [hs]
  · simp only [thr_commitCnt]
    rw [thr_thrMod_ne _ _ hk, thr_thrMod_ne _ _ hk]

/-- A commit with a taken branch. -/
theorem finish_jump {op : POp} {th : Thr} {f : Form} {s b s0 : State} {u : Thread} {pc : Nat} (hu : thr b (thrNo th) = u)
    (hs : u.step = 0) :
    thrOf th (petalFinish (pcx op th f s) s0 (.jump b pc)) = { u with pc := pc, bkSkip := false } ∧
    agreesBut b (petalFinish (pcx op th f s) s0 (.jump b pc)) ∧
    ∀ k, k ≠ thrNo th → thr (petalFinish (pcx op th f s) s0 (.jump b pc)) k = thr b k := by
  simp only [petalFinish, petalCommit]
  simp only [pcx_tid, thr_commitCnt, thr_thrMod_self, hu, hs]
  simp only [Nat.zero_ne_one, decide_false, Bool.false_and, Bool.false_eq_true, if_false]
  refine ⟨?_, agreesBut_commitCnt (agreesBut_setThr (agreesBut_setThr (agreesBut_refl b) _ _) _ _) _, fun k hk => ?_⟩
  · simp only [thrOf, thr_commitCnt, thr_thrMod_self, hu]
    first | done | rw [st0] | rw [hs]
  · simp only [thr_commitCnt]
    rw [thr_thrMod_ne _ _ hk, thr_thrMod_ne _ _ hk]

/-- What a thread holds after it falls through from registers and flags of its own. -/
theorem through_of {op : POp} {th : Thr} {f : Form} {s s' : State} {u : Thread} {dst : Nat → Option TV} {fl : Bool × Bool × Bool × Bool}
    (h : fetches op th f s) (ht : thrOf th s' = { advance (nextPc op th f s) u with bkSkip := false })
    (hg : u = { started th s with g := u.g, z := fl.1, n := fl.2.1, c := fl.2.2.1, v := fl.2.2.2 })
    (hr : ∀ r, mget u.g r TV.void = (dst r).getD (mget (thrOf th s).g r TV.void)) : through op th f s s' dst fl := by
  obtain ⟨hready, -⟩ := h
  refine ⟨?_, ?_, ?_, ?_⟩ <;> simp only [ht]
  · intro r
    rw [← hr r, advance, fallTo_eq]
  · simp only [flags]
    rw [advance, fallTo_eq, hg]
  · simp only [fallsThrough]
    refine advance_congr _ ?_ ?_ <;> rw [hg] <;> rfl
  · simp only [sameHoldings]
    rw [advance, fallTo_eq, hg]
    exact ⟨hready, rfl, rfl, rfl, rfl, rfl, rfl, rfl, rfl, rfl, rfl, rfl, rfl, rfl, rfl, rfl⟩

theorem agreesBut_trans {a b c : State} (h : agreesBut a b) (g : agreesBut b c) : agreesBut a c := by
  obtain ⟨T, C, rfl⟩ := h
  obtain ⟨T', C', rfl⟩ := g
  exact ⟨_, _, rfl⟩

theorem step_of_shape {th : Thr} {s : State} {o : POp} {f : Form} {u : Thread} {x : Thread → Thread} (h : fetches o th f s)
    (hg : u = x (started th s)) (hx : (x (started th s)).step = (started th s).step) : u.step = 0 := by
  rw [hg, hx]
  exact h.2.1

/-- The commit of an instruction whose body has left everything but its thread's registers and flags alone. -/
theorem finish_commits {op : POp} {th : Thr} {f : Form} {s b : State} {u : Thread} {dst : Nat → Option TV}
    {fl : Bool × Bool × Bool × Bool} (h : fetches op th f s) (hs : agreesBut s b) (ho : ∀ k, k ≠ thrNo th → thr b k = thr s k)
    (hu : thr b (thrNo th) = u)
    (hg : u = { started th s with g := u.g, z := fl.1, n := fl.2.1, c := fl.2.2.1, v := fl.2.2.2 })
    (hr : ∀ r, mget u.g r TV.void = (dst r).getD (mget (thrOf th s).g r TV.void)) :
    commits op th f s (petalFinish (pcx op th f s) (begun th s) (.ok b)) dst fl := by
  have hst : u.step = 0 := by
    rw [hg]
    exact h.2.1
  obtain ⟨h1, h2, h3⟩ := finish_ok (op := op) (f := f) (s := s) (s0 := begun th s) hu hst
  exact ⟨through_of h h1 hg hr, agreesBut_eq (agreesBut_trans hs h2), fun k hk => (h3 k hk).trans (ho k hk)⟩

theorem agreesBut_begun (th : Thr) (s : State) : agreesBut s (begun th s) := agreesBut_setThr (agreesBut_refl s) _ _

theorem thr_begun_ne {th : Thr} {s : State} {k : Nat} (h : k ≠ thrNo th) : thr (begun th s) k = thr s k :=
  thr_thrMod_ne _ _ h

/-- An instruction that changes its thread's registers and flags and falls through. -/
theorem petal_commits {op : POp} {th : Thr} {f : Form} {s : State} {opn : PCx → Opn} {body : PCx → State → PRes}
    {g : Thread → Thread} {dst : Nat → Option TV} {fl : Bool × Bool × Bool × Bool}
    (h : goesAhead op th f s) (ho : opnReady th s (opn (pcx op th f s)))
    (hb : body (pcx op th f s) (begun th s) = commitT (pcx op th f s) g (begun th s))
    (hg : g (started th s) = { started th s with
      g := (g (started th s)).g, z := fl.1, n := fl.2.1, c := fl.2.2.1, v := fl.2.2.2 })
    (hr : ∀ r, mget (g (started th s)).g r TV.void = (dst r).getD (mget (thrOf th s).g r TV.void)) :
    commits op th f s (petal op th f s opn body) dst fl := by
  rw [petal_runs h ho (by rw [hb]; rfl), hb]
  refine finish_commits h.1 (agreesBut_setThr (agreesBut_begun th s) _ _) (fun k hk => ?_) ?_ hg hr
  · rw [pcx_tid, thr_thrMod_ne _ _ hk, thr_begun_ne hk]
  · rw [pcx_tid, thr_thrMod_self, thr_begun]

/-- An instruction whose body changes nothing. -/
theorem petal_same {op : POp} {th : Thr} {f : Form} {s : State} {opn : PCx → Opn} {body : PCx → State → PRes}
    (h : goesAhead op th f s) (ho : opnReady th s (opn (pcx op th f s)))
    (hb : body (pcx op th f s) (begun th s) = .ok (begun th s)) :
    commits op th f s (petal op th f s opn body) to0 (flags (thrOf th s)) := by
  rw [petal_runs h ho (by rw [hb]; rfl), hb]
  exact finish_commits h.1 (agreesBut_begun th s) (fun k hk => thr_begun_ne hk) (thr_begun th s) rfl (fun _ => rfl)

end Sys2Proof.Machine
end

