-- ==== Sys2Proof/Laws/PetalAlu.lean ====
section
/-! SUPPORT. What the shared operations of the arithmetic instructions do. -/

namespace Sys2Proof.Machine

theorem bit31 (w : Word) : bit w 31 = w.msb := by
  simp [bit, BitVec.msb_eq_getLsbD_last]

theorem mget_setG (t : Thread) (r k : Nat) (x : TV) :
    mget (setG t r x).g k TV.void = if k = r then x else mget t.g k TV.void := mget_mput _ _ _ _ _

/-- A thread with other flags. -/
def withFlags (fl : Bool × Bool × Bool × Bool) (t : Thread) : Thread :=
  { t with z := fl.1, n := fl.2.1, c := fl.2.2.1, v := fl.2.2.2 }

/-- The operands of an instruction that reads values and moves none. -/
theorem opnReady_of {th : Thr} {s : State} {o : Opn} (hm : o.moves = []) (h : operands th s o.reads o.dsts)
    (ht : isPlain th s = true ∨ o.ok (started th s) = true) : opnReady th s o := by
  obtain ⟨h1, h2, h3⟩ := h
  refine ⟨by simpa [hm] using h1, h2, fun _ => by simp [hm, clean], ?_⟩
  rcases ht with ht | ht
  · exact .inl ht
  · rcases h3 with h3 | h3
    · exact .inl h3
    · exact .inr ⟨ht, by simp [hm], h3⟩

/-- An instruction whose body writes one register and the flags. -/
theorem petal_writes {op : POp} {th : Thr} {f : Form} {s : State} {opn : PCx → Opn} {body : PCx → State → PRes}
    {r : Fin 16} {x : TV} {fl : Bool × Bool × Bool × Bool} {g : Thread → Thread}
    (h : goesAhead op th f s) (ho : opnReady th s (opn (pcx op th f s)))
    (hb : body (pcx op th f s) (begun th s) = commitT (pcx op th f s) g (begun th s))
    (hg : g (started th s) = setG (withFlags fl (started th s)) r.val x) :
    commits op th f s (petal op th f s opn body) (to1 r x) fl := by
  refine petal_commits h ho hb ?_ ?_
  · rw [hg]
    rfl
  · intro k
    rw [hg, mget_setG]
    unfold to1
    by_cases hr : k = r.val
    · rw [if_pos hr, if_pos hr]
      rfl
    · rw [if_neg hr, if_neg hr]
      rfl

/-- An instruction whose body writes the flags alone. -/
theorem petal_flags {op : POp} {th : Thr} {f : Form} {s : State} {opn : PCx → Opn} {body : PCx → State → PRes}
    {fl : Bool × Bool × Bool × Bool} {g : Thread → Thread}
    (h : goesAhead op th f s) (ho : opnReady th s (opn (pcx op th f s)))
    (hb : body (pcx op th f s) (begun th s) = commitT (pcx op th f s) g (begun th s))
    (hg : g (started th s) = withFlags fl (started th s)) :
    commits op th f s (petal op th f s opn body) to0 fl := by
  refine petal_commits h ho hb ?_ ?_
  · rw [hg]
    rfl
  · intro k
    rw [hg]
    rfl

/-- The flags of a thread, put back. -/
theorem withFlags_flags (t : Thread) : withFlags (flags t) t = t := rfl

/-- What a register-register operation does when it goes ahead. -/
theorem alu3_commits {op : POp} {tagf : Nat → Nat → Option Nat} {fl : Bool} {g : Thread → Word → Word → Thread × Word}
    {th : Thr} {f : Form} {s : State} {tag : Nat} {val : Word → Word → Bool → Word}
    {fv : Thread → Word → Word → Word → Bool × Bool × Bool × Bool} {rule : Nat → Nat → Option Nat}
    (hrule : ∀ a b, rule a b = tagf a b)
    (hg : ∀ t a b, g t a b = (withFlags (fv t a b (val a b t.c)) t, val a b t.c))
    (hl : fv (started th s) = fv (thrOf th s))
    (h : goesAhead op th f s) (ho : operands th s ([f.rs.val, f.rt.val] ++ if fl then [16] else []) [f.rd.val])
    (ht : isPlain th s = true ∨ rule (inRs th s f).tag (inRt th s f).tag = some tag) :
    commits op th f s (alu3 op tagf fl g th f s)
      (to1 f.rd (tagged th s (val (inRs th s f).v (inRt th s f).v (thrOf th s).c) tag))
      (fv (thrOf th s) (inRs th s f).v (inRt th s f).v (val (inRs th s f).v (inRt th s f).v (thrOf th s).c)) := by
  have hrdy : opnReady th s (alu3Opn tagf fl (pcx op th f s)) := by
    refine opnReady_of rfl ho (ht.imp id fun e => ?_)
    rw [hrule] at e
    show (tagf (inRs th s f).tag (inRt th s f).tag).isSome = true
    rw [e]
    rfl
  unfold alu3
  refine petal_writes h hrdy rfl ?_
  simp only [pcx_t, hg, hl]
  have hb : (if isPlain th s then tINT else (tagf (inRs th s f).tag (inRt th s f).tag).getD tINT) =
      (if isPlain th s then tINT else tag) := by
    rcases ht with ht | ht
    · simp [ht]
    · rw [hrule] at ht
      simp [ht]
  show setG _ f.rd.val _ = setG _ f.rd.val _
  refine congrArg (setG _ _) ?_
  exact congrArg (TV.mk _) hb

/-- What a register-immediate operation does when it goes ahead. -/
theorem aluI_commits {op : POp} {tagf : Nat → Nat → Option Nat} {g : Thread → Word → Word → Thread × Word}
    {th : Thr} {f : Form} {s : State} {tag : Nat} {val : Word → Word → Bool → Word}
    {fv : Thread → Word → Word → Word → Bool × Bool × Bool × Bool} {rule : Nat → Nat → Option Nat}
    (hrule : ∀ a b, rule a b = tagf a b)
    (hg : ∀ t a b, g t a b = (withFlags (fv t a b (val a b t.c)) t, val a b t.c))
    (hl : fv (started th s) = fv (thrOf th s))
    (h : goesAhead op th f s) (ho : operands th s [f.rd.val] [f.rd.val])
    (ht : isPlain th s = true ∨ rule (inRd th s f).tag (inImm th s f).tag = some tag) :
    commits op th f s (aluI op tagf g th f s)
      (to1 f.rd (tagged th s (val (inRd th s f).v (inImm th s f).v (thrOf th s).c) tag))
      (fv (thrOf th s) (inRd th s f).v (inImm th s f).v (val (inRd th s f).v (inImm th s f).v (thrOf th s).c)) := by
  have hrdy : opnReady th s (aluIOpn tagf (pcx op th f s)) := by
    refine opnReady_of rfl ho (ht.imp id fun e => ?_)
    rw [hrule] at e
    show (tagf (inRd th s f).tag (inImm th s f).tag).isSome = true
    rw [e]
    rfl
  unfold aluI
  refine petal_writes h hrdy rfl ?_
  simp only [pcx_t, hg, hl]
  have hb : (if isPlain th s then tINT else (tagf (inRd th s f).tag (inImm th s f).tag).getD tINT) =
      (if isPlain th s then tINT else tag) := by
    rcases ht with ht | ht
    · simp [ht]
    · rw [hrule] at ht
      simp [ht]
  show setG _ f.rd.val _ = setG _ f.rd.val _
  refine congrArg (setG _ _) ?_
  exact congrArg (TV.mk _) hb

/-- A command whose meaning is a register-register operation gives its result. -/
theorem alu3_binary {i : Thr → Form → Instr} {op : POp} {tagf rule : Nat → Nat → Option Nat} {carry : Bool}
    {g : Thread → Word → Word → Thread × Word} {val : Word → Word → Bool → Word}
    {fv : Thread → Word → Word → Word → Bool × Bool × Bool × Bool}
    (hi : ∀ th f s, exec (i th f) s = .next (alu3 op tagf carry g th f s)) (hrule : ∀ a b, rule a b = tagf a b)
    (hg : ∀ t a b, g t a b = (withFlags (fv t a b (val a b t.c)) t, val a b t.c))
    (hl : ∀ th s, fv (started th s) = fv (thrOf th s)) : binary3 i op carry rule val fv :=
  fun th f s _ h ho ht => ⟨_, hi th f s, alu3_commits hrule hg (hl th s) h ho ht⟩

/-- A command whose meaning is a register-immediate operation gives its result. -/
theorem aluI_binary {i : Thr → Form → Instr} {op : POp} {tagf rule : Nat → Nat → Option Nat}
    {g : Thread → Word → Word → Thread × Word} {val : Word → Word → Bool → Word}
    {fv : Thread → Word → Word → Word → Bool × Bool × Bool × Bool}
    (hi : ∀ th f s, exec (i th f) s = .next (aluI op tagf g th f s)) (hrule : ∀ a b, rule a b = tagf a b)
    (hg : ∀ t a b, g t a b = (withFlags (fv t a b (val a b t.c)) t, val a b t.c))
    (hl : ∀ th s, fv (started th s) = fv (thrOf th s)) : binaryI i op rule val fv :=
  fun th f s _ h ho ht => ⟨_, hi th f s, aluI_commits hrule hg (hl th s) h ho ht⟩

/-- The operands of an instruction all of whose operands are INT. -/
theorem opInt_ready {th : Thr} {s : State} {r d : List Nat} (ho : operands th s r d) (hp : allInt th s r) :
    opnReady th s (opInt r d) := by
  refine opnReady_of rfl ho (hp.imp id fun h => ?_)
  simp only [opInt, List.all_eq_true, Bool.or_eq_true, beq_iff_eq]
  exact fun x hx => .inr (h x hx)

/-- The operands of an instruction that reads no register. -/
theorem opNone_ready {th : Thr} {s : State} {d : List Nat} (ho : operands th s [] d) : opnReady th s (opNone d) :=
  opnReady_of rfl ho (.inr rfl)

theorem outside_begun (th : Thr) (s : State) : outside th s (begun th s) := ⟨rfl, fun _ hk => thr_begun_ne hk⟩

/-- A change of the own thread is no change outside it. -/
theorem outside_thrMod {th : Thr} {t b : State} (h : outside th t b) (g : Thread → Thread) :
    outside th t (thrMod (thrNo th) g b) := by
  obtain ⟨e, h⟩ := h
  refine ⟨by rw [e]; rfl, fun k hk => ?_⟩
  rw [thr_thrMod_ne _ _ hk]
  exact h k hk

/-- Everything an instruction does whose body answers that it commits: its thread falls through from `u`, the rest is that of `t`. -/
theorem petal_effect {op : POp} {th : Thr} {f : Form} {s b t : State} {u : Thread} {opn : PCx → Opn} {body : PCx → State → PRes}
    (h : goesAhead op th f s) (ho : opnReady th s (opn (pcx op th f s))) (hb : body (pcx op th f s) (begun th s) = .ok b)
    (hu : thr b (thrNo th) = { u with lastPc := (thrOf th s).pc }) (hs : u.step = 0) (hbt : outside th t b) :
    fellFrom (nextPc op th f s) (thrOf th s) u (thrOf th (petal op th f s opn body)) ∧ outside th t (petal op th f s opn body) := by
  rw [petal_runs h ho (by rw [hb]; rfl), hb]
  obtain ⟨g1, g2, g3⟩ := finish_ok (op := op) (f := f) (s := s) (s0 := begun th s) hu hs
  refine ⟨?_, ?_, fun k hk => ?_⟩
  · rw [g1]
    unfold fellFrom advance
    rw [fallTo_eq _ _ { u with lastPc := (thrOf th s).pc }, fallTo_eq _ _ u]
    obtain ⟨c1, c2, c3⟩ := fallTo_congr 4 (nextPc op th f s) (t := { u with lastPc := (thrOf th s).pc }) (u := u) rfl rfl
    rw [c1, c2, c3]
  · obtain ⟨T, C, hq⟩ := g2
    rw [hq]
    obtain ⟨e, _⟩ := hbt
    generalize b.cores.thr = T0 at *
    rw [e]
  · rw [g3 k hk]
    exact hbt.2 k hk

end Sys2Proof.Machine
end

