-- ==== Sys2Proof/Tests/Slice0.lean ====
section
/-! SUPPORT. The model's own tests: worked words of the spec's encodings, ill-formed commands, the state after reset, and for the
hypotheses of each statement a concrete state and operands that meet them. -/

namespace Sys2Proof.Tests

open Sys2Proof Sys2Proof.Machine

/-! ### A small machine -/

/-- A tagged word. -/
def tv (n tag : Nat) : TV := { v := BitVec.ofNat 32 n, tag := tag }

/-- The registers of the threads of core 0: INT, BOOL, BUF, HOFS, TIME, KEY, CODE and VOID words. -/
def regs0 : List (Nat × TV) :=
  [(0, tv 8 0), (1, tv 4 0), (2, tv 0x100 0), (3, tv 1 1), (4, tv 0xC0000007 2), (5, tv 2 3), (6, tv 5 5), (7, tv 1 7), (8, tv 0x40 6),
   (10, tv 1 0), (11, tv 0x80000003 2), (12, tv 2 0), (13, tv 3 0), (14, tv 0x1F800 0), (15, tv 0x80 6)]

/-- A READY thread with those registers at address 0x100. -/
def thread0 : Thread := { Thread.init with st := .ready, g := regs0, pc := 0x100, base := 2 }

/-- A packet of 64 bytes of instance 0. -/
def packet0 : Pkt := { Pkt.init with win := List.replicate 64 7, bytes := List.replicate 64 7, slot := 0, cells := 1 }

/-- A structure image with one instance, one core, one port, two queues and one table. -/
def image0 : Image :=
  { Image.none with
    valid := true
    posy := [⟨0, true, 255, 0, 255, 0, 0⟩, ⟨1, false, 0, 0, 0, 0, 0⟩]
    mode := [⟨0, false, 0, 0x40⟩]
    inst := [⟨0, 0, 0, 0, 1, 0, 2, 0, 0, 0, 2, 0, 64, 4, 4⟩]
    port := [⟨0, 0, 0, false⟩]
    copa := [(0, 127)]
    qhie := [⟨0, 0, 0, 0, 0, 0⟩, ⟨0, 0, 0, 0, 1, 0⟩, ⟨1, 0, 0, 0, 0, 0⟩, ⟨2, 0, 0, 0, 0, 0⟩]
    tgeo := [⟨0, 0, 0, 8, 0, 1, 0⟩] }

/-- Every block that leaves IDLE runs. -/
def blocks0 : List (Nat × BlkCopy) :=
  [7, 9, 10, 11, 12, 13, 14, 15, 16, 17, 18, 19, 20, 21, 22, 23, 24, 25, 26, 27, 28].map
    (fun b => (64 * b, { BlkCopy.init with st := .run }))

/-- A booted device: thread 0 of core 0 supervises; thread 1 holds the packet of cell 7 in context 5; thread 2 is BOUND, thread 3
HELD, thread 4 BLOCKED on lock 9, thread 5 STOPPED and thread 6 without a packet. Locks 0 to 63 and 4 KiB of scratch are instance
0's. -/
def base : State :=
  { State.reset with
    regs := ⟨[(0x181000, 0xC0000000), (0x3008000, 0x10000), (0x3008080, 0x10000)], [], blocks0⟩
    boot := { State.reset.boot with phase := 3 }
    img := image0
    insSt := [(0, .run)]
    dsp := { State.reset.dsp with
      ctxs := [(5, ⟨.run, 0, 0, some 7, .none⟩)]
      flows := [(0, [5])]
      pkts := [(7, packet0)] }
    cores := { State.reset.cores with
      thr := [(0, thread0), (1, { thread0 with ctx := some 5, pkt := tv 0xC0000007 2 }), (2, { thread0 with st := .bound }),
        (3, { thread0 with st := .held, flt := some ⟨1, 0x104, none, 0⟩ }),
        (4, { thread0 with st := .blocked, wait := .lock 9, wnext := 0x102 }),
        (5, { thread0 with st := .stopped, back := .ready }), (6, thread0)] } }

/-- The supervisor, the worker with a packet and the worker without. -/
def sup : Thr := ⟨0, 0⟩
def wrk : Thr := ⟨0, 1⟩
def idl : Thr := ⟨0, 6⟩

/-! ### Hypotheses of the statements about instructions, as Booleans -/

def fetchesB (o : POp) (th : Thr) (f : Form) (s : State) : Bool :=
  decide ((thrOf th s).st = .ready) && (thrOf th s).step == 0 && active s 18 0 &&
  !(bkptAt s th.core.val (thrOf th s).pc && !(thrOf th s).bkSkip && dbgHeld s (tinst s (thrNo th))) &&
  decide (nextPc o th f s ≤ 524288) && decide (f.err.val ≠ 1) &&
  !lineBad s (clusterOf s th.core.val) (thrOf th s).pc (formLen o f)

def admittedB (o : POp) (th : Thr) (f : Form) (s : State) : Bool :=
  formLegal o f (nextPc o th f s) && (!petalPriv o || isSup s (thrNo th)) &&
  (petalUnit o f).all (fun u => (unitsOf s (clusterOf s th.core.val)).testBit u) &&
  (!(thrOf th s).busy.contains 16) && predHolds (thrOf th s) f && !petalWaits o s

/-- An instruction with its thread, its form, the registers it reads, its destinations and the registers that hold INT. -/
structure Run where
  o : POp
  f : Form
  rd : List Nat
  ds : List Nat
  ti : List Nat

/-- The instruction goes ahead in the state, and its operands let it run. -/
def Run.Meets (c : Run) (th : Thr) (s : State) : Prop :=
  goesAhead c.o th c.f s ∧ operands th s c.rd c.ds ∧ allInt th s c.ti

def Run.ok (th : Thr) (s : State) (c : Run) : Bool :=
  fetchesB c.o th c.f s && admittedB c.o th c.f s && (!c.f.co || !coWaits s (thrOf th s)) &&
  c.rd.all (fun r => !(thrOf th s).busy.contains r) && c.rd.all (fun r => decide (tagR (thrOf th s) r ≠ tPOISON)) &&
  c.ds.all (fun r => decide (tagR (thrOf th s) r ≠ tBUF)) && c.ti.all (fun r => decide (tagR (thrOf th s) r = tINT))

theorem fetchesB_sound {o : POp} {th : Thr} {f : Form} {s : State} (h : fetchesB o th f s = true) : fetches o th f s := by
  simp only [fetchesB, Bool.and_eq_true, Bool.not_eq_true', decide_eq_true_eq, beq_iff_eq] at h
  obtain ⟨⟨⟨⟨⟨⟨a, b⟩, c⟩, d⟩, e⟩, g⟩, i⟩ := h
  exact ⟨a, b, c, d, e, g, i⟩

theorem admittedB_sound {o : POp} {th : Thr} {f : Form} {s : State} (h : admittedB o th f s = true) : admitted o th f s := by
  simp only [admittedB, Bool.and_eq_true, Bool.not_eq_true', Option.all_eq_true] at h
  obtain ⟨⟨⟨⟨⟨a, b⟩, c⟩, d⟩, e⟩, g⟩ := h
  refine ⟨a, fun hp => ?_, fun u hu => c u hu, fun _ hm => ?_, e, g⟩
  · simpa [hp] using b
  · simp [hm] at d

theorem Run.ok_sound {c : Run} {th : Thr} {s : State} (h : Run.ok th s c = true) : c.Meets th s := by
  simp only [Run.ok, Bool.and_eq_true, List.all_eq_true, decide_eq_true_eq, Bool.not_eq_true'] at h
  obtain ⟨⟨⟨⟨⟨⟨a, b⟩, c'⟩, d⟩, e⟩, g⟩, i⟩ := h
  refine ⟨⟨fetchesB_sound a, admittedB_sound b, fun hc => ?_⟩, ⟨fun r hr hm => ?_, fun r hr _ => e r hr, Or.inr g⟩, Or.inr i⟩
  · simpa [hc] using c'
  · have := d r hr
    simp [hm] at this

/-- Every instruction of a list meets the hypotheses. -/
theorem runs_meet {l : List Run} {th : Thr} {s : State} (h : l.all (Run.ok th s) = true) : ∀ c ∈ l, c.Meets th s :=
  fun c hc => Run.ok_sound (List.all_eq_true.mp h c hc)


/-! ### Petal instructions: a state and operands for each form -/

/-- Forms over registers that hold INT: the result goes to g9, which is VOID. -/
def regs3 (l : List POp) : List Run := l.map (fun o => ⟨o, bare 9 0 1 0, [0, 1], [9], [0, 1]⟩)
def regs2 (l : List POp) : List Run := l.map (fun o => ⟨o, bare 9 0 0 0, [0], [9], [0]⟩)
def both2 (l : List POp) : List Run := l.map (fun o => ⟨o, bare 0 1 0 0, [0, 1], [0], [0, 1]⟩)
def immed (l : List POp) : List Run := l.map (fun o => ⟨o, bare 0 0 0 5, [0], [0], [0]⟩)

theorem wit_IntegerArithmetic :
    ∀ c ∈ regs3 [.add, .sub, .andOp, .orOp, .xorOp, .shl, .shr, .sar, .mul, .rol, .minOp, .maxOp, .minu, .maxu] ++
      [⟨.addc, bare 9 0 1 0, [0, 1, 16], [9], [0, 1]⟩, ⟨.subc, bare 9 0 1 0, [0, 1, 16], [9], [0, 1]⟩] ++
      immed [.addi, .subi, .andi, .ori, .xori, .shli, .shri, .sari, .roli] ++
      [⟨.cmp, bare 0 1 0 0, [0, 1], [], [0, 1]⟩, ⟨.tst, bare 0 1 0 0, [0, 1], [], [0, 1]⟩,
       ⟨.cmpi, bare 0 0 0 5, [0], [], [0]⟩, ⟨.tsti, bare 0 0 0 5, [0], [], [0]⟩], c.Meets wrk base :=
  runs_meet (by decide)

/-- Tags of the classes TA and TL: a TIME and an INT may be added, and two BOOL may be combined. -/
theorem wit_tag_rules : taAdd 5 0 = some 5 ∧ taSub 5 5 = some 0 ∧ tlTag 1 1 = some 1 ∧ ruleTI 0 0 = some 0 := by decide

theorem wit_MoveResults :
    ∀ c ∈ [⟨.nop, bare 0 0 0 0, [], [], []⟩, ⟨.yieldOp, bare 0 0 0 0, [], [], []⟩, ⟨.fence, bare 0 0 0 0, [], [], []⟩,
      ⟨.movi, bare 9 0 0 5, [], [9], []⟩, ⟨.movih, bare 0 0 0 5, [0], [0], [0]⟩, ⟨.clr, bare 9 0 0 0, [], [9], []⟩,
      ⟨.mov, bare 9 4 0 0, [], [9], []⟩, ⟨.swap, bare 4 0 0 0, [], [], []⟩], Run.Meets c wrk base :=
  runs_meet (by decide)

theorem wit_effectsDone : effectsDone wrk base := by
  have ha : base.lck.atoms = [] := rfl
  have hc : base.cpx.ctx = [] := rfl
  simp [effectsDone, ha, hc]

theorem wit_UnaryMultiplyDivide :
    (∀ c ∈ regs2 [.notOp, .neg, .sextb, .sexth, .zextb, .zexth, .bswap, .brev, .clz, .ctz, .popc] ++
      both2 [.mulw, .mulwu, .divOp, .divu, .rem, .remu], c.Meets wrk base) ∧ (inRs wrk base (bare 0 1 0 0)).v ≠ 0 :=
  ⟨runs_meet (by decide), by decide⟩

/-- Core-local memory at 0x110, and the context block's parse result. -/
theorem wit_LoadsAndStores :
    (∀ c ∈ [⟨.ld, bare 9 2 0 0x10, [2], [9], [2]⟩, ⟨.ldx, bare 9 0 2 0, [0, 2], [9], [0, 2]⟩,
      ⟨.lds, { bare 9 2 0 0x10 with size := 1 }, [2], [9], [2]⟩, ⟨.ldsx, { bare 9 0 2 0 with size := 2 }, [0, 2], [9], [0, 2]⟩,
      ⟨.st, bare 2 0 0 0x10, [2], [], [2]⟩, ⟨.stx, bare 1 0 2 0, [0, 2], [], [0, 2]⟩,
      ⟨.hld, bare 9 5 0 0x10, [5], [9], []⟩, ⟨.hldx, bare 9 5 10 0, [5, 10], [9], [10]⟩,
      ⟨.hofs, bare 9 0 0 0, [], [9], []⟩, ⟨.hlen, bare 9 0 0 0, [], [9], []⟩, ⟨.htype, bare 9 0 0 0, [], [9], []⟩],
      Run.Meets c wrk base) ∧
    (cmReach (addrDisp inRs wrk base (bare 9 2 0 0x10)) 4 ∧ cmPoison base 0 0x110 = false) ∧
    (loadTag (bare 9 2 0 0x10) 0 ∧ sizeBytes (bare 9 2 0 0x10) = 4) ∧
    (storeValue wrk base (bare 2 0 0 0x10) 0 ∧ cmTag base 0 0x110 = tVOID) ∧
    (0 ≤ addrDisp inRs wrk base (bare 9 5 0 0x10) ∧
      addrDisp inRs wrk base (bare 9 5 0 0x10) + sizeBytes (bare 9 5 0 0x10) ≤ (window wrk base).length) ∧
    (thrOf wrk base).pkt.tag ≠ tVOID := by
  refine ⟨runs_meet (by decide), ?_, ?_, ?_, ?_, by decide⟩
  · unfold cmReach; decide
  · unfold loadTag; decide
  · refine ⟨⟨by decide, Or.inr ⟨by decide, ?_⟩⟩, by decide⟩; decide
  · decide

theorem wit_ControlTransfer :
    (∀ c ∈ [⟨.br, bare 0 0 0 4, [], [], []⟩, ⟨.bcc, bare 0 0 0 4, [16], [], []⟩, ⟨.call, bare 0 0 0 4, [], [15], []⟩,
      ⟨.callr, bare 0 8 0 0, [8], [15], []⟩, ⟨.jmpr, bare 0 8 0 0, [8], [], []⟩, ⟨.ret, bare 0 0 0 0, [15], [], []⟩,
      ⟨.lea, bare 9 0 0 4, [], [9], []⟩, ⟨.loopOp, bare 0 0 0 8, [0], [], [0]⟩, ⟨.loopi, bare 1 2 0 8, [], [], []⟩,
      ⟨.lexit, bare 0 0 0 0, [], [], []⟩], Run.Meets c wrk base) ∧
    codeIn wrk base (inRs wrk base (bare 0 8 0 0)) ∧ codeIn wrk base (mget (thrOf wrk base).g 15 TV.void) ∧
    (thrOf wrk base).depth < 4 := by
  refine ⟨runs_meet (by decide), ?_, ?_, by decide⟩ <;> unfold codeIn <;> decide

theorem wit_FusedResults :
    (∀ c ∈ both2 [.crc32c, .crc32, .crc16r, .crc16n, .tpz, .tpzH, .tpzSym, .tpzHSym, .add16, .add32, .sub16, .extu, .exts, .ins] ++
      [⟨.tpzInit, bare 9 0 0 0, [], [9], []⟩, ⟨.finOp, bare 0 0 0 0, [0], [0], [0]⟩, ⟨.bfset, bare 0 1 0 0, [1], [], [1]⟩],
      c.Meets wrk base) ∧ (inRs wrk base (bare 0 1 0 0)).v.toNat < 1024 ∧ 0 < (thrOf wrk base).bfw :=
  ⟨runs_meet (by decide), by decide, by decide⟩

theorem wit_TagsAndSpecialRegisters :
    (∀ c ∈ [⟨.tagof, bare 9 7 0 0, [], [9], []⟩, ⟨.tagset, bare 3 0 0 0, [3], [], []⟩, ⟨.mfs, bare 9 0 0 0, [16], [9], []⟩,
      ⟨.mfs, bare 9 0 0 20, [], [9], []⟩, ⟨.mfs, bare 9 0 0 4, [], [9], []⟩, ⟨.mts, bare 0 0 0 0, [0], [], [0]⟩,
      ⟨.mts, bare 0 0 0 19, [0], [], [0]⟩], Run.Meets c wrk base) ∧
    (let s : State := thrMod 1 (fun t => { t with pkt := TV.void }) base
     Run.Meets ⟨.mts, bare 0 4 0 4, [4], [], []⟩ wrk s ∧ (inRs wrk s (bare 0 4 0 4)).v = pktHandle (tinst s 1) 7 ∧
       (inRs wrk s (bare 0 4 0 4)).tag = tBUF ∧ (thrOf wrk s).pkt.tag = tVOID ∧ thrCell s 1 = some 7) :=
  ⟨runs_meet (by decide), Run.ok_sound (by decide), by decide, by decide, by decide, by decide⟩

theorem wit_DeviceReads :
    (∀ c ∈ [⟨.tblh, bare 9 0 0 0, [], [9], []⟩, ⟨.rdtime, bare 9 0 0 0, [], [9], []⟩, ⟨.rdtime, bare 9 1 0 0, [], [9], []⟩,
      ⟨.rdtime, bare 9 2 0 0, [], [9], []⟩, ⟨.rand, bare 9 0 0 0, [], [9], []⟩, ⟨.lkstat, bare 9 0 0 0, [0], [9], [0]⟩],
      Run.Meets c wrk base) ∧
    (∀ c ∈ [⟨.posycap, bare 9 0 0 1, [], [9], []⟩, ⟨.evqlen, bare 9 0 0 0, [], [9], []⟩, ⟨.thrst, bare 9 12 0 0, [12], [9], [12]⟩],
      Run.Meets c sup base) ∧
    (tgeoRec base 0 = some ⟨0, 0, 0, 8, 0, 1, 0⟩ ∧ posyRec base 1 = some ⟨1, false, 0, 0, 0, 0, 0⟩) ∧ unrecorded base ∧
    namesThr sup base 0 (inRs sup base (bare 9 12 0 0)).v ∧
    (anyLock 8 = true ∧ lockInst base 8 = some (tinst base (thrNo wrk))) := by
  refine ⟨runs_meet (by decide), runs_meet (by decide), by decide, ?_, ?_, by decide⟩
  · unfold unrecorded; decide
  · unfold namesThr; decide

theorem wit_SupervisorOperations :
    (∀ c ∈ [⟨.sett, bare 0 12 0 0, [12, 0], [], [12, 0]⟩, ⟨.sett, bare 0 12 1 0, [12, 0], [], [12, 0]⟩,
      ⟨.sett, bare 10 12 2 0, [12, 10], [], [12, 10]⟩, ⟨.relt, bare 0 12 0 0, [12], [], [12]⟩, ⟨.relt, bare 0 13 0 0, [13], [], [13]⟩,
      ⟨.fdisp, bare 0 13 0 0, [13], [], [13]⟩, ⟨.fdisp, bare 0 13 0 1, [13], [], [13]⟩, ⟨.fdisp, bare 0 13 0 2, [13], [], [13]⟩,
      ⟨.gett, bare 9 12 0 18, [12], [9], [12]⟩, ⟨.gett, bare 9 1 0 0, [1], [9], [1]⟩], Run.Meets c sup base) ∧
    supervisesRs 15 sup base (bare 0 12 0 0) ∧ supervisesRs 0 sup base (bare 0 12 0 0) ∧ supervisesRs 0 sup base (bare 0 13 0 0) ∧
    supervisesRs 0 sup base (bare 0 1 0 0) ∧ ¬rsStill sup base (bare 0 1 0 0) ∧
    rsStill sup base (bare 0 12 0 0) ∧
    ((thr base 2).st = .bound ∧ (thr base 3).st = .held ∧ (thr base 3).flt.isSome = true ∧ isSup base 3 = false ∧
      (thr base 3).ctx = none ∧ (thr base 3).entry = none ∧ (thr base 3).cps = [] ∧ locksHeld base 3 = []) := by
  refine ⟨runs_meet (by decide), ?_, ?_, ?_, ?_, ?_, ?_, by decide⟩
  · unfold supervisesRs namesThr; decide
  · unfold supervisesRs namesThr; decide
  · unfold supervisesRs namesThr; decide
  · unfold supervisesRs namesThr; decide
  · unfold rsStill; decide
  · unfold rsStill; decide

theorem wit_PacketDispositions :
    (∀ c ∈ [⟨.send, bare 0 10 0 0, [10], [], [10]⟩, ⟨.sendi, bare 0 0 0 0, [], [], []⟩, ⟨.dropOp, bare 0 0 0 0, [], [], []⟩,
      ⟨.tohost, bare 0 0 0 5, [], [], []⟩, ⟨.recirc, bare 0 0 0 0, [], [], []⟩], Run.Meets c wrk base) ∧
    ((inRs wrk base (bare 0 10 0 0)).v.toNat < instF base 0 (·.qCount) ∧
      (qRec base 1).isSome = true) ∧
    (0 < instF base 0 (·.qCount) ∧ (qRec base 0).isSome = true) ∧ (hostPort base 0).isSome = true ∧
    ((thrOf wrk base).pkt.tag ≠ tVOID ∧ (thrOf wrk base).ctx = some 5 ∧ (ctxOf base 5).cell = some 7 ∧ (ctxOf base 5).st ≠ .unord ∧
      pktOf base 7 = some packet0) :=
  ⟨runs_meet (by decide), by decide, by decide, by decide, by decide, by decide, by decide, by decide, rfl⟩

theorem wit_PacketOperations :
    (∀ c ∈ [⟨.pktlen, bare 9 0 0 0, [], [9], []⟩, ⟨.edadd, bare 9 2 1 0, [2, 1], [9], [2, 1]⟩, ⟨.edrd, bare 9 0 0 0, [], [9], []⟩,
      ⟨.mirror, bare 0 10 0 0, [0, 10], [], [0, 10]⟩, ⟨.ordx, bare 0 0 0 0, [], [], []⟩], Run.Meets c wrk base) ∧
    Run.Meets ⟨.ordx, bare 0 0 0 0, [], [], []⟩ idl base ∧
    (cmPoison base 0 (0x1F800 + 0x100 * 1 + 0x24) = false ∧ thrCell base 1 = some 7 ∧ (thrOf idl base).ctx = none) ∧
    editOk base 0 (editOp (BitVec.ofNat 32 0x0004) (BitVec.ofNat 32 8)) = true ∧
    (packet0.mirrors < 2 ∧ portInst base 0 = some (tinst base 1) ∧ (8 : Nat) ≤ 144) :=
  ⟨runs_meet (by decide), Run.ok_sound (by decide), by decide, by decide, by decide⟩

/-- Pool 0 of instance 0 is valid with 64 buffers of 256 bytes in the pool area; buffer 3 is in use, buffer 4 in the cache of pipe 0. -/
def pooled : State :=
  { base with
    regs := { base.regs with vals := base.regs.vals ++ [(poolCfg 0, 0x80000000), (poolCfg 0 + 12, 64)] }
    bpm := { base.bpm with pool := [(0, { fresh := 8, ring := [], cache := [(0, [4])] })] } }

theorem wit_BufferOperations :
    (∀ c ∈ [⟨.alloc, bare 9 0 0 0, [], [9], []⟩, ⟨.freeOp, bare 0 11 0 0, [11], [], []⟩,
      ⟨.bld, bare 9 11 1 0, [11, 1], [9], [1]⟩, ⟨.bst, bare 0 11 1 0, [11, 1, 0], [], [0, 1]⟩], Run.Meets c wrk pooled) ∧
    (ownCluster wrk pooled % 4 = 0 ∧ cacheOf (poolOf pooled 0) 0 = [4]) ∧
    areaBuf wrk pooled (inRs wrk pooled (bare 9 11 1 0)).v 0 3 ∧
    ((inRs wrk pooled (bare 9 11 1 0)).tag = tBUF ∧
      (inRt wrk pooled (bare 9 11 1 0)).v.toNat + sizeBytes (bare 9 11 1 0) ≤ poolSize pooled 0) := by
  refine ⟨runs_meet (by decide), by decide, ?_, by decide⟩
  unfold areaBuf; decide

/-- An item descriptor, or a WID with a message slot, in core-local memory at 0x100; every word of the block holds INT. -/
def withBlock (m : List (Nat × Byte)) : State :=
  { base with
    regs := { base.regs with vals := base.regs.vals ++ [(0x2008000, 16)] }
    cores := { base.cores with mem := m, tags := [64, 65, 66, 67, 68, 69].map (fun k => (k, tINT)) } }

/-- KIND 1 for posy 1 with one MSG slot and ARG 9. -/
def descriptor : List (Nat × Byte) := [(0x103, 0x40), (0x105, 0x40), (0x107, 1), (0x10C, 9)]

/-- An item of instance 0 that waits for a message in slot 0. -/
def item0 : Item :=
  { kind := 1, prio := 0, ordered := false, handoff := false, inst := 0, oflow := 0, posy := 1, slots := [4, 0, 0, 0], pkt := 0,
    arg := 9, st := .waiting, got := [], miss := [], msg := [], cell := none, ctx := none, created := 0, readyAt := 0, list := 1,
    exec := 0, seq := none, edits := [], avoid := none }

/-- Item 8192 waits, and its WID stands at 0x100. -/
def messaged : State :=
  let s := withBlock [(0x101, 0x20)]
  { s with dsp := { s.dsp with items := [(8192, item0)] } }

/-- An event stands in the supervisor's queue. -/
def told : State := thrMod 0 (fun t => { t with evq := [⟨0x69, 1, 0, 0, 0, 5, 0⟩] }) base

theorem wit_WorkItems :
    (Run.Meets ⟨.getw, bare 0 0 0 0, [], [14], []⟩ idl base ∧ isSup base (thrNo idl) = false ∧ (thrOf idl base).ctx = none ∧
      (thrOf idl base).entry = none ∧ (thrOf idl base).edit = [] ∧ (thrOf idl base).pkt = TV.void ∧
      blockBuf base (thrNo idl) = false) ∧
    (Run.Meets ⟨.getw, bare 0 0 0 0, [], [14], []⟩ sup told ∧ isSup told (thrNo sup) = true ∧ blockBuf told (thrNo sup) = false ∧
      (thrOf sup told).evq = [⟨0x69, 1, 0, 0, 0, 5, 0⟩] ∧ (thrOf sup told).fq = []) ∧
    (Run.Meets ⟨.mkitem, bare 9 2 0 0, [2], [9], [2]⟩ idl (withBlock descriptor) ∧ blockOk idl (withBlock descriptor) (bare 9 2 0 0) 4 ∧
      unrecorded (withBlock descriptor) ∧ itemOf (withBlock descriptor) 8192 = none ∧
      itemJudge 0 1 none (blockWords idl (withBlock descriptor) 0x100 4) (withBlock descriptor) = 0) ∧
    (Run.Meets ⟨.mkitem, bare 9 2 0 0, [2], [9], [2]⟩ idl (withBlock []) ∧ blockOk idl (withBlock []) (bare 9 2 0 0) 4 ∧
      itemJudge 0 1 none (blockWords idl (withBlock []) 0x100 4) (withBlock []) ≠ 0) ∧
    (Run.Meets ⟨.sendmsg, bare 9 2 0 0, [2], [9], [2]⟩ idl messaged ∧ blockOk idl messaged (bare 9 2 0 0) 6 ∧
      (blockWords idl messaged 0x100 6).take 2 = [0x2000, 0] ∧ mget messaged.dsp.gens 8192 0 = 0 ∧ itemOf messaged 8192 = some item0) ∧
    (blockOk idl (withBlock [(0x102, 1)]) (bare 9 2 0 0) 6 ∧ cmNum (withBlock [(0x102, 1)]) 0 0x100 4 = 65536) := by
  refine ⟨⟨Run.ok_sound (by decide), by decide⟩, ⟨Run.ok_sound (by decide), by decide⟩,
    ⟨Run.ok_sound (by decide), ?_, ?_, by decide, by decide⟩, ⟨Run.ok_sound (by decide), ?_, by decide⟩,
    ⟨Run.ok_sound (by decide), ?_, by decide, by decide, by decide⟩, ?_, by decide⟩
  · unfold blockOk; decide
  · unfold unrecorded; decide
  · unfold blockOk; decide
  · unfold blockOk; decide
  · unfold blockOk; decide

/-- Lock 8 is held by thread 6, lock 9 by the worker, and lock 7, which nothing holds, by none; fast lock 1 of cluster 0 by the
worker. -/
def locked : State :=
  { base with lck := { base.lck with lk := [(8, ⟨some 6, 0⟩), (10, ⟨some 1, 0⟩), (0x80000001, ⟨some 1, 0⟩)] } }

theorem wit_LocksAndAtomics :
    (∀ c ∈ [⟨.lock, bare 0 1 0 0, [1], [], [1]⟩, ⟨.lock, bare 0 0 0 0, [0], [], [0]⟩, ⟨.locki, bare 0 0 0 7, [], [], []⟩,
      ⟨.flock, bare 0 0 0 0, [], [], []⟩, ⟨.trylock, bare 0 0 0 0, [0], [], [0]⟩, ⟨.trylock, bare 0 1 0 0, [1], [], [1]⟩,
      ⟨.funlock, bare 0 0 0 1, [], [], []⟩,
      ⟨.afadd, bare 9 2 0 0, [2, 0], [9], [2, 0]⟩, ⟨.afand, bare 9 2 0 0, [2, 0], [9], [2, 0]⟩,
      ⟨.afor, bare 9 2 0 0, [2, 0], [9], [2, 0]⟩, ⟨.aswap, bare 9 2 0 0, [2, 0], [9], [2, 0]⟩,
      ⟨.acas, bare 10 2 0 0, [2, 0, 10], [10], [2, 0, 10]⟩], Run.Meets c wrk locked) ∧
    (let s := thrMod 1 (fun t => setG t 0 (tvInt 10)) locked
     Run.Meets ⟨.unlock, bare 0 0 0 0, [0], [], [0]⟩ wrk s ∧ (lockOf s 10).holder = some 1 ∧ lockWaiters s 10 = []) ∧
    (∀ c ∈ [⟨.frcrel, bare 0 0 0 0, [0], [], [0]⟩, ⟨.frcrel, bare 0 1 0 0, [1], [], [1]⟩], Run.Meets c sup locked) ∧
    unrecorded locked ∧ locked.lck.stwWait = none ∧
    (isGlobal 4 = true ∧ lockInst locked 4 = some 0 ∧ (lockOf locked 4).holder = none ∧ lockWaiters locked 4 = []) ∧
    (lockInst locked 8 = some 0 ∧ (lockOf locked 8).holder = some 6 ∧ lockWaiters locked 8 = [] ∧ (thr locked 6).st = .ready ∧
      (thr locked 6).wait = .none ∧ (thr locked 6).pend.length < 8) ∧
    (isFast (fastNum wrk locked (bare 0 0 0 1)) = true ∧ lockInst locked (fastNum wrk locked (bare 0 0 0 1)) = some 0 ∧
      (lockOf locked (fastNum wrk locked (bare 0 0 0 1))).holder = some 1) ∧
    atomReach wrk locked (inRs wrk locked (bare 9 2 0 0)).v ∧ atomReach wrk locked 0x80000000 := by
  refine ⟨runs_meet (by decide), ⟨Run.ok_sound (by decide), by decide, by decide⟩, runs_meet (by decide), ?_, by decide, by decide,
    by decide, by decide, ?_, ?_⟩
  · unfold unrecorded; decide
  · unfold atomReach; decide
  · unfold atomReach; decide

/-- Thread 6 has the USER_EVENT numbered 8 and a FORCED record; a debug session of the PF holds instance 0, and a breakpoint
stops one thread at once. -/
def evented : State :=
  let s := thrMod 6 (fun t => { t with pend := [⟨0x6A, 255, 0, 1, 0, 8, 0⟩] }) base
  { s with sec := { s.sec with sess := [(32, ⟨1, 1⟩)] }, regs := { s.regs with vals := s.regs.vals ++ [(0x280800C, 0)] } }

theorem wit_ThreadEvents :
    (Run.Meets ⟨.evwait, bare 9 0 0 0, [0], [9], [0]⟩ idl evented ∧ unrecorded evented ∧
      (thrOf idl evented).pend = [⟨0x6A, 255, 0, 1, 0, 8, 0⟩] ∧ (inRs idl evented (bare 9 0 0 0)).v.toNat = 8) ∧
    (Run.Meets ⟨.evwait, bare 9 0 0 0, [0], [9], [0]⟩ idl base ∧ (thrOf idl base).pend = []) ∧
    (let s := thrMod 1 (fun t => setG t 13 (tvInt 6)) base
     Run.Meets ⟨.evsig, bare 13 0 0 0, [13, 0], [], [13, 0]⟩ wrk s ∧ namesThr wrk s 0 (inRd wrk s (bare 13 0 0 0)).v ∧
       namedThr (inRd wrk s (bare 13 0 0 0)).v = 6 ∧ (thr s 6).st = .ready ∧ (thr s 6).wait = .none ∧ (thr s 6).pend.length < 8) ∧
    (Run.Meets ⟨.evsig, bare 12 0 0 0, [12, 0], [], [12, 0]⟩ wrk base ∧ namesThr wrk base 0 (inRd wrk base (bare 12 0 0 0)).v ∧
      (thr base 2).st = .bound) ∧
    (∀ c ∈ [⟨.assertOp, bare 0 3 0 0, [3], [], []⟩, ⟨.jmark, bare 0 0 0 0, [0], [], [0]⟩], Run.Meets c wrk base) ∧
    (Run.Meets ⟨.trig, bare 0 0 0 0, [0], [], [0]⟩ sup base ∧ base.jnl.st ≠ .run) ∧
    (let s : State := { base with jnl := { base.jnl with st := .run }, regs := { base.regs with vals := base.regs.vals ++ [(0x408010, 4)] } }
     Run.Meets ⟨.trig, bare 0 0 0 0, [0], [], [0]⟩ sup s ∧ rb s 0x408010 2 = true) ∧
    (Run.Meets ⟨.breakOp, bare 0 0 0 0, [], [], []⟩ wrk evented ∧ dbgHeld evented (tinst evented (thrNo wrk)) = true ∧
      rb evented 0x280800C 0 = false ∧ rb evented 0x280800C 1 = false) := by
  refine ⟨⟨Run.ok_sound (by decide), ?_, by decide, by decide⟩, ⟨Run.ok_sound (by decide), by decide⟩,
    ⟨Run.ok_sound (by decide), ?_, by decide⟩, ⟨Run.ok_sound (by decide), ?_, by decide⟩, runs_meet (by decide),
    ⟨Run.ok_sound (by decide), by decide⟩, ⟨Run.ok_sound (by decide), by decide⟩, ⟨Run.ok_sound (by decide), by decide⟩⟩
  · unfold unrecorded; decide
  · unfold namesThr; decide
  · unfold namesThr; decide

/-- The worker holds context 0 of unit `u` with these c-registers. -/
def holding (u : Nat) (c : List (Nat × TV)) : State :=
  let s := thrMod 1 (fun t => { t with cps := [(u, 0)] }) base
  setCpx 0 u 0 { CpxCtx.init with holder := some 1, c := c } s

theorem wit_CoprocessorContexts :
    (∀ c ∈ [⟨.clk, bare 9 0 0 1, [], [9], []⟩, ⟨.cul, bare 0 0 0 1, [], [], []⟩, ⟨.mtc, bare 0 7 0 17, [7], [], []⟩,
      ⟨.mfc, bare 9 0 0 17, [], [9], []⟩], Run.Meets c wrk (holding 1 [])) ∧
    (ownCtx wrk (holding 1 []) 1 = some 0 ∧ (cpxOf (holding 1 []) 0 1 0).holder = some (thrNo wrk) ∧
      (cpxOf (holding 1 []) 0 1 0).cmd = none ∧ cpxBufs (cpxOf (holding 1 []) 0 1 0) = [] ∧ clkWaiters (holding 1 []) 0 1 = [] ∧
      1 ∉ (cpxOf (holding 1 []) 0 1 0).sb ∧ (inRs wrk (holding 1 []) (bare 0 7 0 17)).tag ≤ 7 ∧
      (creg (cpxOf (holding 1 []) 0 1 0).c 1).tag = tVOID) ∧
    (∀ c ∈ [⟨.clk, bare 9 0 0 1, [], [9], []⟩, ⟨.cul, bare 0 0 0 1, [], [], []⟩], Run.Meets c wrk base) ∧
    (ownCtx wrk base 1 = none ∧ (thrOf wrk base).reacq = [] ∧ clkWaiters base 0 1 = [] ∧
      (List.range 8).find? (cpxFree base (ownCluster wrk base) 1) = some 0) :=
  ⟨runs_meet (by decide), by decide, runs_meet (by decide), by decide⟩

/-- A GO with the tags its entry requires in the c-registers listed, the others VOID. -/
def goMeets (c : POp × Nat × List (Nat × TV) × List (Nat × List Nat)) : Bool :=
  Run.ok wrk (holding c.2.1 c.2.2.1) ⟨c.1, bare 0 0 0 0, [], [], []⟩ &&
  decide (ownCtx wrk (holding c.2.1 c.2.2.1) c.2.1 = some 0) && decide ((cpxOf (holding c.2.1 c.2.2.1) 0 c.2.1 0).cmd = none) &&
  c.2.2.2.all (fun p => p.2.contains (creg c.2.2.1 p.1).tag)

theorem wit_CoprocessorCommandsStart :
    ∀ c ∈ [(POp.keyref, 0, [(1, tv 3 0)], [(1, [tINT])]),
      (.gcmEnc, 0, [(1, tv 0 7), (2, tv 0 2)], [(1, [tKEY]), (2, [tBUF])] ++ plainOps [3, 4, 5, 6, 7, 8]),
      (.gcmDec, 0, [(1, tv 0 7), (2, tv 0 2)], [(1, [tKEY]), (2, [tBUF])] ++ plainOps [3, 4, 5, 6, 7, 8, 9, 10, 11, 12]),
      (.sha256, 0, [(2, tv 0 2)], [(2, [tBUF])] ++ plainOps [3, 5]),
      (.lmsVerify, 0, [(2, tv 0 2)], [(2, [tBUF])] ++ plainOps [3, 4, 5, 8, 9, 10, 11, 12, 13, 14, 15]),
      (.lookup, 1, [(1, tv 0 4)], [(1, [tTBL])] ++ plainOps [2, 3, 4, 5, 6, 7, 8, 9, 12, 13]),
      (.insertOp, 1, [(1, tv 0 4)], [(1, [tTBL])] ++ plainOps [2, 10, 11]), (.updateOp, 1, [(1, tv 0 4)], [(1, [tTBL])] ++ plainOps [2, 11]),
      (.deleteOp, 1, [(1, tv 0 4)], [(1, [tTBL])] ++ plainOps [2, 9]), (.hitread, 1, [(1, tv 0 4)], [(1, [tTBL])] ++ plainOps [2, 9]),
      (.scan, 2, [(1, tv 0 2)], [(1, [tBUF])] ++ plainOps [2, 3, 4]), (.police, 3, [], plainOps [1, 2, 3]),
      (.countOp, 3, [], plainOps [1, 2]), (.cntread, 3, [], plainOps [1]), (.cntclr, 3, [], plainOps [1]),
      (.copy, 4, [], extOp [] 3 :: extOp [] 6 :: plainOps [1, 2, 4, 5, 7]),
      (.copy, 4, [(1, tv 3 0), (3, tv 0 2)], extOp [(1, tv 3 0), (3, tv 0 2)] 3 :: plainOps [1, 2, 4, 5, 7]),
      (.fill, 4, [], extOp [] 6 :: plainOps [4, 5, 7, 8]), (.armCreate, 5, [(2, tv 0 5)], (2, [tINT, tTIME]) :: plainOps [1, 4, 5, 6, 7]),
      (.armMsg, 5, [(2, tv 0 0)], (2, [tINT, tTIME]) :: plainOps [1, 4, 5, 6, 7, 8, 9]), (.disarm, 5, [], plainOps [11]),
      (.hmsg, 6, [], plainOps [1, 2, 3, 4, 5, 6, 7, 8, 9])], goMeets c = true :=
  List.all_eq_true.mp (by decide)

/-- Admission: an illegal form, a privileged one in a worker, a unit that is not attached, a busy Z and a false predicate. -/
theorem wit_PetalAdmission :
    (petalOf (.add wrk (bare 9 0 1 0)) = some (wrk, .add, bare 9 0 1 0)) ∧
    ((thr base 2).st ≠ .ready ∧ active { base with regs := { base.regs with blk := [] } } 18 0 = false ∧
      524288 < nextPc .add wrk (bare 9 0 1 0) (thrMod 1 (fun t => { t with pc := 524286 }) base)) ∧
    (fetches .add wrk { bare 9 0 1 0 with co := true } base ∧
      formLegal .add { bare 9 0 1 0 with co := true } (nextPc .add wrk { bare 9 0 1 0 with co := true } base) = false) ∧
    (fetches .evqlen wrk (bare 9 0 0 0) base ∧ petalPriv .evqlen = true ∧ isSup base (thrNo wrk) = false) ∧
    (let s : State := { base with img := { image0 with copa := [(0, 1)] } }
     fetches .lookup wrk (bare 0 0 0 0) s ∧ petalUnit .lookup (bare 0 0 0 0) = some 1 ∧
       (unitsOf s (clusterOf s wrk.core.val)).testBit 1 = false) ∧
    (16 ∈ (thrOf wrk (thrMod 1 (fun t => { t with busy := [16] }) base)).busy) ∧
    (fetches .add wrk { bare 9 0 1 0 with pred := 1 } base ∧ predHolds (thrOf wrk base) { bare 9 0 1 0 with pred := 1 } = false) ∧
    (let s := blkMod base 20 0 (fun k => { k with st := .idle })
     fetches .locki wrk (bare 0 0 0 7) s ∧ petalWaits .locki s = true) ∧
    (faultSup base (thrNo wrk) = some (1, 0) ∧ (thr base 0).st ≠ .getw ∧ (thr base 0).evq.length < 16 ∧ (thr base 0).fq = []) := by
  refine ⟨rfl, by decide, ⟨fetchesB_sound (by decide), by decide⟩, ⟨fetchesB_sound (by decide), by decide⟩,
    ⟨fetchesB_sound (by decide), by decide⟩, by decide, ⟨fetchesB_sound (by decide), by decide⟩, ⟨fetchesB_sound (by decide), by decide⟩,
    by decide⟩

theorem wit_OperandFaults :
    (∀ o ∈ [POp.add, .sub, .andOp, .orOp, .xorOp, .shl, .shr, .sar, .mul, .rol],
      fetches o wrk (bare 9 0 1 0) base ∧ admitted o wrk (bare 9 0 1 0) base) ∧
    ¬arrived wrk (thrMod 1 (fun t => { t with busy := [0] }) base) [0, 1] ∧
    (inRs wrk (thrMod 1 (fun t => setG t 0 (tv 0 8)) base) (bare 9 0 1 0)).tag = tPOISON ∧
    ((inRs wrk base (bare 9 7 1 0)).tag = tKEY ∧ arrived wrk base [7, 1] ∧ clean wrk base [7, 1] ∧ isPlain wrk base = false) ∧
    (∀ o ∈ [POp.divOp, .divu, .rem, .remu], fetches o wrk (bare 0 1 0 0) base ∧ admitted o wrk (bare 0 1 0 0) base) ∧
    (inRs wrk (thrMod 1 (fun t => setG t 1 (tvInt 0)) base) (bare 0 1 0 0)).v = 0 ∧
    (fetches .ld wrk (bare 9 2 0 0x10) base ∧ admitted .ld wrk (bare 9 2 0 0x10) base) ∧
    (0x20000 < addrDisp inRs wrk base (bare 9 2 0 0x1FEFD) + sizeBytes (bare 9 2 0 0x1FEFD)) ∧
    (addrDisp inRs wrk base (bare 9 2 0 1) % sizeBytes (bare 9 2 0 1) ≠ 0) := by
  refine ⟨fun o ho => ?_, ?_, by decide, ⟨by decide, ?_, ?_, by decide⟩, fun o ho => ?_, by decide,
    ⟨fetchesB_sound (by decide), admittedB_sound (by decide)⟩, by decide, by decide⟩
  · have h : [POp.add, .sub, .andOp, .orOp, .xorOp, .shl, .shr, .sar, .mul, .rol].all
        (fun o => fetchesB o wrk (bare 9 0 1 0) base && admittedB o wrk (bare 9 0 1 0) base) = true := by decide
    have h := List.all_eq_true.mp h o ho
    rw [Bool.and_eq_true] at h
    exact ⟨fetchesB_sound h.1, admittedB_sound h.2⟩
  · intro h; exact h 0 (by decide) (by decide)
  · unfold arrived; decide
  · unfold clean; decide
  · have h : [POp.divOp, .divu, .rem, .remu].all
        (fun o => fetchesB o wrk (bare 0 1 0 0) base && admittedB o wrk (bare 0 1 0 0) base) = true := by decide
    have h := List.all_eq_true.mp h o ho
    rw [Bool.and_eq_true] at h
    exact ⟨fetchesB_sound h.1, admittedB_sound h.2⟩

/-- Two levels whose bodies end at 0x101, the inner in its last pass. -/
theorem wit_HardwareLoops :
    let t : Thread := { thread0 with depth := 2, lv := [(0, ⟨0x40, 0x101, 3⟩), (1, ⟨0x80, 0x101, 1⟩)] }
    (lvOf t 1).le = 0x101 ∧ (lvOf t 1).lc.toNat ≤ 1 ∧ (lvOf t 0).le = 0x101 ∧ 1 < (lvOf t 0).lc.toNat ∧
    (advance 0x101 t).pc = 0x40 ∧ (advance 0x101 t).depth = 1 ∧ (lvOf (advance 0x101 t) 0).lc = 2 ∧
    (advance 0x102 t).pc = 0x102 ∧ (advance 0x102 t).depth = 2 := by decide

/-! ### The other commands: a state and operands for each statement's hypotheses -/

/-- A state with these words in its registers. -/
def withR (l : List (Nat × Word)) (s : State) : State :=
  { s with regs := { s.regs with vals := l.foldl (fun m p => mins m p.1 p.2) s.regs.vals } }

/-- The same with a second instance, of virtual function 1. -/
def twoInst (s : State) : State := { s with img := { s.img with inst := s.img.inst ++ [⟨1, 1, 2, 0, 0, 0, 0, 0, 0, 0, 0, 64, 1, 0, 0⟩] } }

theorem wit_RegisterWrites :
    (mayWrite .pf 0x2808004 base ∧ isHdr 0x2808004 = false ∧ onBasic 0x2808004 = false ∧ expertDenied base 0x2808004 = false ∧
      (regRow 0x2808004).map (·.cls) = some .l ∧ (regCmd .pf 0x2808004 5 base).isNone = true ∧ cmdBusy .pf 0x2808004 base = false ∧
      gateHeld base 0x2808004 = false ∧ blkOf 0x2808004 ∉ [12, 14, 16, 23]) ∧
    ((regRow 0x2808004).any (fun d => d.legal 1 && legalAt base 0x2808004 d 1 && d.legal 65535 && !d.legal 0) = true) ∧
    ((regRow 0xC18800).map (·.cls) = some .h ∧ hNow 0xC18800 base = false ∧ mayWrite .pf 0xC18800 base ∧
      (regRow 0xC18800).any (fun d => d.legal 5 && legalAt base 0xC18800 d 5) = true) ∧
    ((regRow 0x408000).map (·.cls) = some .s ∧ blkIdle base 7 0 = true) ∧
    (mayWrite .pf 0x1028 base ∧ w32 (blkSum base (fun k => k.expert)) &&& 4 = 0) ∧
    (let s := blkMod base 11 0 (fun k => { k with expert := true })
     mayWrite .pf 0x1028 s ∧ w32 (blkSum s (fun k => k.expert)) &&& 0x800 ≠ 0) ∧
    (blkOf 0xC18800 = 10 ∧ mfind [(0xC18800, (1 : Word))] 0xC18800 = some 1) := by
  unfold mayWrite; decide

theorem wit_BlockStatesIndirectPort :
    (mayWrite .pf (stateOff 18 0) base ∧ (blkGet base 18 0).st = .run ∧ 0 < blkCopies 18) ∧
    (let s := blkMod base 18 0 (fun k => { k with st := .draining })
     mayWrite .pf (stateOff 18 0) s ∧ (blkGet s 18 0).st = .draining) ∧
    (let s := blkMod base 12 0 (fun k => { k with st := .draining })
     (blkGet s 12 0).st = .draining ∧ blkBusy s 12 = false) ∧
    (let s := withR [(iaAddr 0, 0x1010)] (twoInst base)
     flrRuns 0 s = false ∧ mayRead (.vf 0) (iaOff 0 s) s ∧ mayWrite (.vf 0) (iaOff 0 s) s ∧ rb s (iaAddr 0) 31 = false ∧
       rb (regWriteDo (.vf 0) (iaOff 0 s) 1 s) (iaAddr 0) 31 = false) := by
  unfold mayWrite mayRead; decide

/-- MAC 0 is attached at 100 Gb/s with frames up to 1,522 bytes, its receive block running. -/
def ported : State := withR [(macCfg 0, 0x84000000 + 1522), (0x1008000, 0), (0x1009100, 8192)] base

/-- A PAUSE frame of 16 quanta. -/
def pauseFrame : List Byte :=
  [1, 0x80, 0xC2, 0, 0, 1, 2, 0, 0, 0, 0, 1, 0x88, 0x08, 0, 1, 0, 16] ++ List.replicate 42 0

set_option maxRecDepth 20000 in
theorem wit_PortFrames :
    (macPort ported 0 = some ⟨0, 0, 0, false⟩ ∧ attached ported 0 = true ∧ macRetrains ported 0 = false ∧ running ported 9 0 = true ∧
      (64 : Nat) + 4 ≤ rf ported (macCfg 0) 13 0 ∧ fcKind (List.replicate 64 7) = 0 ∧ be16 (List.replicate 64 7) 12 ≠ 0x88E5 ∧
      rf ported (0xC18800) 3 2 ≠ 1 ∧ portInst ported 0 = some 0 ∧ insState ported 0 = .run ∧ running ported 12 0 = true ∧
      fcMode ported 0 = 0 ∧ occOf ported 0 0 = ⟨0, 0, 0⟩ ∧ cdiv 64 256 ≤ guarOf (withR [(ingPqa 0 0, 12)] ported) 0 0 ∧
      pktOf ported 0 = none) ∧
    (fcMode (withR [(0x1008000, 0x40000000)] ported) 0 = 1 ∧ fcKind pauseFrame = 1 ∧ be16 pauseFrame 16 ≠ 0 ∧
      phyRate (rf ported (macCfg 0) 27 24) ≠ 0) ∧
    (mfind [(3, 500)] (0 * 8 + 3) = some 500) ∧
    (let s := withR [(0x1009104, 0), (0x1008000, 0x80010000), (0x2008000, 0)] ported
     let s : State := { s with port := { s.port with noCtx := [(0, 0)] }, img := { s.img with inst := [] } }
     mfind s.port.noCtx 0 = some 0 ∧ 0 + rf s 0x1009104 15 0 ≤ s.clk.fab ∧ ctxFree s 0 = 0 ∧ lossless s 0 0 = true) ∧
    (let s := withR [(0x1008000, 0x40000000)] ported
     let s : State := { s with port := { s.port with fcq := [(0, true)], xoff := [(0, true)] }, clk := { s.clk with fab := 1000000 } }
     mget s.port.fcq 0 false = true ∧ fcMode s 0 ≠ 0 ∧ portRate s 0 ≠ 0 ∧ mget s.port.xoff (0 * 8 + 0) false = true ∧
       mget s.port.fcAt 0 0 + cdiv (32768 * 512) (portRate s 0) ≤ s.clk.fab) ∧
    (let s := withR [(0x1009100, 0)] ported
     mayWrite .pf 0x1000100 s ∧ (blkGet s 12 0).expert = false ∧ bits (0 : Word) 31 30 ≠ 3 ∧ bits (0 : Word) 23 16 = 0 ∧
       1522 = rf s (macCfg 0) 13 0 ∧ 4608 ≤ sharedPool (fcDerive 0 0 1522 100 (rset s 0x1000100 0))) := by
  unfold mayWrite; refine ⟨?_, ?_, ?_, ?_, ?_, ?_⟩ <;> decide

theorem wit_LanesAndKeys :
    (mayWrite .pf 0x801000 base ∧ rf (withR [(laneSts 0, 0x04000000)] base) (laneSts 0) 27 26 = 1) ∧
    (let s := withR [(scCfg 0 0, 0xC0000000)] base
     mayWrite .pf 0xC01040 s ∧ macsecOff s = false ∧ reqPriv .pf = true ∧ rb s (scCfg 0 0) 31 = true ∧ rb s (scCfg 0 0) 30 = true ∧
       saOf s 0 0 1 = none ∧ scXpn s 0 0 = false ∧ rf s (scCfg 0 0) 23 21 % 2 = 0 ∧
       saOf { s with port := { s.port with sa := [(1, ⟨[1, 2, 3, 4], [], 0, 1⟩)] } } 0 0 1 = some ⟨[1, 2, 3, 4], [], 0, 1⟩) := by
  unfold mayWrite; decide

theorem wit_PtpClock :
    mayWrite .pf 0xE08014 base ∧ expertDenied base 0xE08014 = false ∧ base.clk.sec < 2 ^ 47 ∧ base.clk.ns < 10 ^ 9 ∧
    0 ≤ (rv base 0xE08010).toInt ∧ mayRead .pf 0xE01000 base ∧ mayRead .pf 0xE01100 base ∧
    rb (withR [(0xE08018, 0xE000000A)] base) 0xE08018 31 = true ∧ base.clk.ns < 100 * rf (withR [(0xE08018, 0xE000000A)] base) 0xE08018 19 0 ∧
    rb (withR [(0xE08018, 0xE000000A)] base) 0xE08018 30 = true ∧ rb (withR [(0xE08018, 0xE000000A)] base) 0xE08018 29 = true ∧
    base.port.sync10 ≠ 9 := by
  unfold mayWrite mayRead; decide

/-- Packet 7 waits for its parser, its classifier and the traffic manager; its frame stands before the editor, before the governors and
before port 0's transmitter. Slot 0 of instance 0's epochs is CURRENT. -/
def flowing : State :=
  let s := withR [(epochSts 0 0, 0x40000001)] ported
  { s with port := { s.port with
      toParse := [(0, [7])], toClass := [(0, [7])], toTm := [7], toEdit := [⟨7, 0, 0, [], none⟩],
      toGov := [⟨7, 0, 0, List.replicate 64 7, none⟩], toTx := [⟨7, 0, 0, List.replicate 64 7, none⟩] } }

theorem wit_PacketPath :
    (let s : State := { flowing with dsp := { flowing.dsp with pkts := [(7, { packet0 with slot := 4 })] } }
     mget s.port.toParse 0 [] = [7] ∧ running s 13 0 = true ∧ epochCur s 0 = some 0 ∧ rf s (epochSts 0 0) 29 16 < 16383) ∧
    (let s := withR [(epochSts 0 0, 0xC0000001)] flowing
     rf s (epochSts 0 0) 31 30 = 3 ∧ packet0.slot < 4) ∧
    (running flowing 25 0 = true ∧ packet0.inst < 32 ∧ (edRun flowing packet0).ttl = false ∧
      max 60 (edRun flowing packet0).bytes.length + 4 ≤ maxFrame flowing 0) ∧
    (maxFrame (withR [(macCfg 0, 0x84000000 + 64)] flowing) 0 < max 60 64 + 4) ∧
    (running flowing 26 0 = true ∧ rb flowing (govSts 0) 31 = false ∧
      (match govJudge flowing 0 (List.replicate 64 7) with
        | .inr _ => true
        | .inl _ => false) = true) ∧
    (rb (withR [(govSts 0, 0x80000000)] flowing) (govSts 0) 31 = true) ∧
    ((2000000 : Nat) / 1000000 ≠ flowing.sec.govWin) ∧
    (lportRec flowing 0 = some ⟨0, 0, 0, false⟩ ∧ portRate flowing 0 ≠ 0 ∧ macRetrains flowing 0 = false ∧
      mget flowing.port.lfault 0 false = false ∧ (txSecy flowing 0 (List.replicate 64 7)).isNone = true ∧
      rf flowing 0xC18800 1 0 ≠ 1) := by decide

theorem wit_Classification :
    (mget flowing.port.toClass 0 [] = [7] ∧ running flowing 14 0 = true ∧ packet0.inst < 32 ∧
      fragKey (graphOf flowing 0 0) packet0 = none) ∧
    (flagAct flowing 0 0 = (none, false)) ∧
    (∀ k, k < 4 → bit (er flowing 0 0 (0x1808000 + 0x40 * k)) 31 = false) ∧
    (flagAct (withR [(0x1408000, 0xAAAA)] flowing) 0 1 = (some (flagReason 0), false) ∧
      flagAct (withR [(0x1408000, 0x5555)] flowing) 0 1 = (none, true) ∧
      trapQueue (withR [(0x3F88000, 0x00010000)] flowing) 0 = some 1) ∧
    (active flowing 15 0 = true ∧ packet0.pass = 0) ∧ mayWrite .pf 0x1401C00 flowing := by
  unfold mayWrite; decide

theorem wit_EpochsAndRules :
    (mayWrite .pf 0x1401000 flowing ∧ (instRec flowing 0).isSome = true ∧ rb flowing (epochRes 0) 30 = false ∧
      flowing.load.kept = false ∧ epochSlot flowing 0 = some 1) ∧
    (let s := withR [(epochSts 0 0, 0x40000001), (epochSts 0 1, 0x80010002), (epochSts 0 2, 0xC0010003), (epochSts 0 3, 0x80010004)] flowing
     epochSlot s 0 = none ∧ rf s (epochSts 0 0) 31 30 = 1 ∧ rf s (epochSts 0 1) 31 30 = 2 ∧ rf s (epochSts 0 1) 29 16 ≠ 0 ∧
       rf s (epochSts 0 1) 15 0 = 2 ∧ rf s (epochSts 0 0) 15 0 = 1) ∧
    (rb (withR [(epochRes 0, 0x40000000)] flowing) (epochRes 0) 30 = true) ∧
    (let s := withR [(0x180A000, 0x00100000)] flowing
     mayWrite .pf 0x1802004 s ∧ actOwner s 0 = some 0 ∧
       actParse 16 (wordBytes ((List.range 32).map (fun w => rv s (0x1802100 + 4 * w)))) = some [] ∧ 0 ∉ liveSlots s ∧
       actOwner s 16 = none) ∧
    (actParse 16 (wordBytes [0xFF, 0]) = some [⟨0xFF, 0, 0, 0⟩] ∧ actOk flowing 0 ⟨0xFF, 0, 0, 0⟩ = false) ∧
    (mayWrite .pf 0x1C08000 flowing ∧ rb flowing 0x1028 15 = false ∧ rb flowing 0x1C08000 31 = false ∧
      (regRow 0x1C08000).any (fun d => d.legal 0x80000001) = true ∧
      (rv flowing 0x1C08004).toNat + (rv flowing 0x1C08008).toNat ≤ instF flowing 0 (·.dramSize) * 256) ∧
    (mayWrite .pf 0x3C01004 flowing ∧ tmplLive flowing (rf flowing 0x3C01000 9 0) = false) := by
  unfold mayWrite; refine ⟨?_, ?_, ?_, ?_, ?_, ?_, ?_⟩ <;> decide

theorem wit_HostItemsAndMessages :
    (let s := withR [(reqKey .pf 0x2001100, 0xC0000000), (reqKey .pf 0x2001104, 0x01004000), (reqKey .pf 0x2001114, 0x2000), (0x2008000, 16)] base
     let s : State := { s with dsp := { s.dsp with items := [(8192, { item0 with kind := 3 })] } }
     mayWrite .pf 0x2001110 s ∧ hostInst s .pf 0 = some 0 ∧ itemJudge 0 3 none (staged4 s .pf 0x2001100) s = 0 ∧ itemOf s 8193 = none ∧
       (rv s (reqKey .pf 0x2001114)).toNat = 8192 ∧ mget s.dsp.gens 8192 0 = 0 ∧ itemOf s 8192 = some { item0 with kind := 3 } ∧
       item0.slots[0]? = some 4 ∧ rf s 0x2001118 1 0 = 0) ∧
    (itemJudge 0 3 none (staged4 base .pf 0x2001100) base ≠ 0 ∧
      mget base.dsp.gens ((rv (withR [(reqKey .pf 0x2001114, 0x10000)] base) (reqKey .pf 0x2001114)).toNat % 16384) 0 ≠ 1) := by
  unfold mayWrite; decide

theorem wit_Dispatching :
    (let s : State := { base with dsp := { base.dsp with items := [(3, { item0 with slots := [1, 0, 0, 0], cell := some 7 }), (4, item0)] } }
     running s 16 0 = true ∧ itemOf s 3 = some { item0 with slots := [1, 0, 0, 0], cell := some 7 } ∧
       operandHere s { item0 with slots := [1, 0, 0, 0], cell := some 7 } 0 = true) ∧
    (rf (withR [(0x2008080, 0x00010001)] base) 0x2008080 31 16 * 1000 ≠ 0 ∧ rf (withR [(0x2008080, 0x00010001)] base) 0x2008080 15 0 ≠ 0 ∧
      lossless base 0 0 = false) ∧
    (let s := thrMod 6 (fun t => { t with st := .getw }) base
     let s : State := { s with dsp := { s.dsp with items := [(8192, { item0 with st := .ready })], ready := [(8, [8192])] } }
     running s 16 0 = true ∧ running s 18 0 = true ∧ (candidates s 0).map (·.1) = [8192] ∧ (posyRec s 1).isSome = true ∧
       eligIn s 1 = [6] ∧ (mget s.dsp.ready 8 []).head? = some 8192) ∧
    (∀ j, j < 32 → j ≠ 0 → candidates base j = []) := by decide

/-- The timer of delay list 2 that is due, and context 5 of flow 0 that is DONE. -/
def dueNow : State :=
  let s := withR [(0x2008000, 16)] base
  { s with
    clk := { s.clk with fab := 5000000 }
    dsp := { s.dsp with
      ctxs := [(5, ⟨.done, 0, 0, some 7, .send 0⟩)]
      items := [(9, { item0 with st := .again })]
      dl := [(1, ⟨2, 0, 1000, true, [0x80000000, 0x01004000, 0, 0], 0, 0, 0, 0⟩),
             (2, ⟨3, 0, 1000, false, [8192, 0, 0, 0, 0], 0, 0, 0, 0⟩), (3, ⟨4, 0, 9000000, true, [], 0, 0, 0, 0⟩)] } }

theorem wit_ReleaseTimersDeadlock :
    (running dueNow 17 0 = true ∧ flowsDue dueNow dueNow.dsp.lastFlow = [0] ∧ flowDue dueNow 0 = some 5 ∧ (ctxOf dueNow 5).flow = 0 ∧
      (ctxOf dueNow 5).cell = some 7 ∧ (ctxOf dueNow 5).disp = .send 0 ∧ dueNow.dsp.wait = []) ∧
    (∀ f, f ∈ mkeys base.dsp.flows → flowDue base f = none) ∧
    ((dlNext dueNow 2).map (·.1) = some 1 ∧ itemJudge 0 2 none [0x80000000, 0x01004000, 0, 0] dueNow = 0 ∧
      itemJudge 0 2 none [0x80000000, 0x01004000, 0, 0] (withR [(0x2008000, 0)] dueNow) = 4) ∧
    ((dlNext dueNow 3).map (·.1) = some 2 ∧ (dlNext dueNow 4).map (·.1) = none) ∧
    ((itemOf dueNow 9).map (·.st) = some .again) := by decide

/-- Every worker of posy 1 is BLOCKED on a lock that another holds: worker 1 and worker 4 hold what the other waits for. -/
def stuck : State :=
  let s := withR [(0x2008400, 0x80000001), (0x2008404, 0x80000001)] base
  { s with
    lck := { s.lck with lk := [(9, ⟨some 1, 0⟩), (10, ⟨some 4, 0⟩)] }
    cores := { s.cores with thr := [(0, thread0), (1, { thread0 with st := .blocked, wait := .lock 10 }),
      (4, { thread0 with st := .blocked, wait := .lock 9 })] } }

theorem wit_deadlock :
    deadlocked stuck 1 = true ∧ deadlockReady stuck 1 = true ∧ supOf stuck 1 = some 0 ∧ (thr stuck 0).st = .ready ∧
    (∀ q ∈ stuck.img.posy, q.id ≠ 1 → posyIn stuck 1 q.id = true → deadlockReady stuck q.id = false) ∧
    deadlocked base 1 = false := by decide

theorem wit_CoreFaultsAndSpares :
    (running base 18 0 = true ∧ thrLive base 6 = true ∧ faultSup base 6 = some (1, 0) ∧ (thr base 0).st = .ready ∧
      (thr base 0).evq.length < 16 ∧ (thr base 0).fq = [] ∧ (hwWindow base 0).length + 1 < rf base 0x2808008 31 24 ∧
      (thr base 6).ctx = none ∧ (thr base 6).entry = none ∧ (thr base 6).cps = [] ∧ locksHeld base 6 = []) ∧
    (let s := thrMod 6 (fun t => { t with st := .stall }) { base with clk := { base.clk with fab := 1000000000 } }
     thrLive s 6 = true ∧ wdogDue s 6 = true) ∧ wdogDue base 6 = false ∧
    (let s := thrMod 3 (fun t => { t with flt := some ⟨1, 0x104, some 0, 0⟩ }) { base with clk := { base.clk with fab := 1000000000 } }
     (thr s 3).st = .held ∧ ((thr s 3).flt.map (·.queuedAt)) = some (some 0) ∧ 0 + rf s 0x2808004 15 0 * 1000 ≤ s.clk.fab ∧
       (thr s 3).ctx = none ∧ locksHeld s 3 = []) ∧
    (mget [(5, true)] 5 false = true ∧ mget base.cores.badLine 5 false = false) ∧
    (let s := coreMod 128 (fun r => { r with src := some 0 }) base
     (coreRec s 128).src = some 0 ∧ (coreRec s 128).spareActive = false ∧ (coreRec s 128).retired = false) := by decide

/-- A session of the PF with CORE_DEBUG over instance 0; a breakpoint or STOP applies to one thread at once. -/
def debugged : State :=
  withR [(0x280800C, 0)] { base with sec := { base.sec with sess := [(32, ⟨1, 1⟩)] } }

theorem wit_Debugger :
    (mayWrite .pf 0x2807804 debugged ∧ dbgScope debugged 0 0 5 0 = some (0, [5]) ∧ dbgOpen debugged .pf 0 = true ∧
      rb debugged 0x280800C 1 = false) ∧
    (dbgScope debugged 2 0 0 9 = none ∧ dbgOpen (withR [(0x201400, 0x10000)] base) .pf 0 = false) ∧
    ((thr debugged 4).wait = .lock 9 ∧ (thr debugged 4).cps = [] ∧ (thr debugged 4).st = .blocked) ∧
    ((thr debugged 6).wait = .none ∧ (thr debugged 6).cps = [] ∧ (thr debugged 6).st = .ready) ∧
    ((thr debugged 5).st = .stopped ∧ (thr debugged 5).reacq = [] ∧ (thr debugged 5).back ≠ .getw) ∧
    (rf debugged (reqKey .pf 0x280780C) 3 0 = 0 ∧ rf (withR [(reqKey .pf 0x280780C, 7)] debugged) (reqKey .pf 0x280780C) 3 0 = 7 ∧
      plainOf debugged 5 = false ∧ tagR (thr debugged 5) 7 = tKEY) := by
  unfold mayWrite; decide

/-- The worker's context 0 of a unit has a command in progress with these operands; instance 0 has a packet, two policers and 64 MiB of
DRAM. -/
def commanded (u code : Nat) (ops : List (Nat × TV)) : State :=
  setCpx 0 u 0 { CpxCtx.init with holder := some 1, cmd := some ⟨code, ops, 1, false⟩ } (holding u ops)

/-- What its completion sees. -/
def seen (u code : Nat) (ops : List (Nat × TV)) : CopCx :=
  { k := 0, i := (clusterInst (commanded u code ops) 0).getD 0, tid := 1, plain := plainOf (commanded u code ops) 1, ops := ops,
    bad := false, vd := 0 }

theorem wit_CoprocessorCompletions :
    (∀ p ∈ [(0, 1), (0, 4), (2, 1), (3, 1), (3, 2), (3, 3), (3, 4), (4, 1), (4, 2), (5, 3)],
      ((cpxOf (commanded p.1 p.2 []) 0 p.1 0).cmd.map (·.code)) = some p.2 ∧
      (cpxOf (commanded p.1 p.2 []) 0 p.1 0).releasing = false ∧ (cpxOf (commanded p.1 p.2 []) 0 p.1 0).holder = some 1) ∧
    ((seen 0 1 [(1, tv 127 0)]).n 1 ≤ 127) ∧
    (let x := seen 0 4 [(2, tv 0xC0000007 2), (5, tv 64 0)]
     x.n 5 ≤ 16384 ∧ (match x.buf (commanded 0 4 x.ops) 2 (x.n 3) (x.n 5) with
       | .ok _ => true
       | .error _ => false) = true) ∧
    (let x := seen 2 1 [(1, tv 0xC0000007 2), (3, tv 64 0), (4, tv 63 0)]
     0 < x.n 3 ∧ x.n 3 ≤ 9216 ∧ x.n 4 ≤ 63 ∧ rb (commanded 2 1 x.ops) (0x1C08000 + 0x10 * x.n 4) 31 = false ∧
       (match x.buf (commanded 2 1 x.ops) 1 (x.n 2) (x.n 3) with
         | .ok _ => true
         | .error _ => false) = true) ∧
    (let x := seen 3 1 [(1, tv 0x30001 0), (2, tv 16383 0), (3, tv 2 0)]
     x.n 1 < 2 ^ 18 ∧ 0 < x.n 2 ∧ x.n 2 ≤ 16383 ∧ x.n 3 ≤ 2 ∧ x.n 1 % 65536 < instF (commanded 3 1 x.ops) x.i (·.polCount)) ∧
    ((countAddr (commanded 3 2 []) 0 0).isSome = true ∧ countAddr (commanded 3 2 []) 0 0x400000 = none) ∧
    (let x := seen 4 2 [(4, tv 2 0), (5, tv 0x3FFFFFC 0), (7, tv 4 0), (8, tv 5 0)]
     0 < x.n 7 ∧ x.n 7 ≤ 65536 ∧ x.n 4 = 2 ∧ x.n 6 < 32 ∧
       x.n 6 * 2 ^ 32 + x.n 5 + x.n 7 ≤ instF (commanded 4 2 x.ops) x.i (·.dramSize) * 1048576) ∧
    (let x := seen 4 1 [(1, tv 2 0), (2, tv 0 0), (4, tv 2 0), (5, tv 0x100 0), (7, tv 65536 0)]
     0 < x.n 7 ∧ x.n 7 ≤ 65536 ∧ x.n 1 = 2 ∧ x.n 4 = 2 ∧ x.n 3 < 32 ∧ x.n 6 < 32 ∧
       x.n 3 * 2 ^ 32 + x.n 2 + x.n 7 ≤ instF (commanded 4 1 x.ops) x.i (·.dramSize) * 1048576) ∧
    (let s : State := { commanded 5 3 [(11, tv 1 0)] with dsp := dueNow.dsp }
     mget s.dsp.dlGen 1 0 = 0 ∧ (mfind s.dsp.dl 1).map (·.inst) = some (seen 5 3 [(11, tv 1 0)]).i) ∧
    (let s := thrMod 4 (fun t => { t with wait := .clk 1 }) base
     (List.range 8).find? (cpxFree s 0 1) = some 0 ∧ clkWaiters s 0 1 = [4] ∧ (thr s 4).reacq = [] ∧ (thr s 4).st = .blocked) ∧
    (let s : State := { base with cpx := { base.cpx with
       ctx := (List.range 8).map (fun x => (cpxKey 0 1 x, { CpxCtx.init with holder := some 6 })), keys := [(3, ⟨[1, 2, 3, 4]⟩)] } }
     (∀ x, x < 8 → cpxFree s 0 1 x = false) ∧ mayWrite .pf 0x2C05020 s ∧ (mfind s.cpx.keys 3).isSome = true ∧
       (mfind s.cpx.keys 4).isNone = true) ∧
    (mayWrite (.vf 0) 0x2C05020 (twoInst base) ∧ reqInst (twoInst base) (.vf 0) = some 1) := by
  unfold mayWrite; refine ⟨?_, ?_, ?_, ?_, ?_, ?_, ?_, ?_, ?_, ?_, ?_, ?_⟩ <;> decide

theorem wit_LockUnitAndAtomics :
    (anyLock 9 = true ∧ (lockOf base 9).holder = none ∧ lockWaiters base 9 = [4] ∧ base.lck.stwWait = none ∧ (thr base 4).st = .blocked ∧
      base.jnl.rp ≠ .run) ∧
    ((lockOf locked 8).holder ≠ none) ∧
    (let s := withR [(reqKey .steward 0x3001800, 8)] locked
     mayWrite .steward 0x3001804 s ∧ stwUp s = true ∧ s.lck.stwWait = none ∧ (rv s (reqKey .steward 0x3001800)).toNat = 8 ∧
       (lockOf s 8).holder = some 6 ∧ (6 : Nat) ≠ stwId ∧ lockWaiters s 8 = [] ∧ (thr s 6).st = .ready ∧ (thr s 6).wait = .none ∧
       (thr s 6).pend.length < 8) ∧
    (let s := withR [(reqKey .steward 0x3001800, 8)] { base with lck := { base.lck with lk := [(8, ⟨some stwId, 0⟩)] } }
     (lockOf s 8).holder = some stwId ∧ lockWaiters s 8 = []) ∧
    (let s := withR [(reqKey .steward 0x3001800, 7)] base
     (lockOf s 7).holder = none ∧ lockWaiters s 7 = [] ∧ (lockOf s 7).status < 4) ∧
    (stwUp (withR [(0x181000, 0x80000000)] base) = false ∧ ¬mayWrite .pf 0x3001804 base) ∧
    (let q : AtomReq := { tid := 1, op := 4, dram := false, addr := 4, val := 5, cmp := 0, rd := 3 }
     [q, q][0]? = some q ∧ q.tid ≠ 5000 ∧ (∃ a ∈ [q, q].take 1, a.tid = q.tid ∧ a.dram = q.dram) ∧
       ∀ a ∈ [q, q].take 0, ¬(a.tid = q.tid ∧ a.dram = q.dram)) := by
  unfold mayWrite; decide

theorem wit_BufferPools :
    (let s : State := { pooled with bpm := { pooled.bpm with frees := [(0, 0, 3)] } }
     s.bpm.frees = [(0, 0, 3)] ∧ active s 21 0 = true ∧ (cacheOf (poolOf s 0) 0).length < 64) ∧
    (running pooled 21 0 = true ∧ poolValid pooled 0 = true ∧ (cacheOf (poolOf pooled 0) 0).length < 16) ∧
    (let s : State := { pooled with bpm := { pooled.bpm with pool := [(0, { fresh := 64, ring := [], cache := [(0, List.range 49)] })] } }
     48 < (cacheOf (poolOf s 0) 0).length ∧ (poolOf s 0).ring.length + 16 ≤ poolCount s 0) ∧
    (let s := withR [(poolCfg 0, 0), (poolCfg 0 + 8, 4)] pooled
     mayWrite .pf (poolCfg 0) s ∧ expertDenied s (poolCfg 0) = false ∧ bit (0x80000000 : Word) 31 = true ∧ poolValid s 0 = false ∧
       (regRow (poolCfg 0)).any (fun d => d.legal 0x80000000) = true ∧ poolPlaced s 0 0x80000000 = true ∧
       poolPlaced s 1 0x80000000 = false) := by
  unfold mayWrite; decide

/-- Table 0 is an exact-match table of two buckets, table 1 associative with keys of 160 bits, table 2 learning. -/
def tabled (ent : List (Nat × TEnt)) : State :=
  { base with
    img := { image0 with tgeo := [⟨0, 0, 0, 0, 0, 2, 0⟩, ⟨1, 0, 1, 0, 0, 8, 0⟩, ⟨2, 0, 2, 0, 0, 8, 0⟩] }
    tbl := { base.tbl with ent := ent } }

/-- The entry of key 0 in the first way of its first bucket. -/
def entry0 : Nat × TEnt :=
  (entKey 0 0 (tblBuckets ⟨0, 0, 0, 0, 0, 2, 0⟩ 0).1 0, { key := 0, hit := false, stat := false, stale := false, res := 7 })

set_option exponentiation.threshold 512 in
set_option maxRecDepth 20000 in
theorem wit_TableCommands :
    (mayWrite .pf 0x3401000 (tabled []) ∧ (tgeoRec (tabled []) 0).map (·.table) = some 0 ∧ reqFor (tabled []) .pf 0 = true ∧
      reqFor (twoInst (tabled [])) (.vf 0) 0 = false ∧ mayWrite (.vf 0) 0x3401000 (twoInst (tabled []))) ∧
    (let g : TgeoRec := ⟨0, 0, 0, 0, 0, 2, 0⟩
     let s := withR [(reqKey .pf 0x3401010, 7), (reqKey .pf 0x3401014, 0)] (tabled [])
     tblStaged s .pf g = some 0 ∧ tblWays s g 0 0 = [] ∧ freeWay s 0 0 (tblBuckets g 0).1 = some 0 ∧
       tblStaged (withR [(reqKey .pf 0x3401044, 1)] s) .pf g = none) ∧
    (let g : TgeoRec := ⟨0, 0, 0, 0, 0, 2, 0⟩
     let s := tabled [entry0]
     tblWays s g 0 0 = [((tblBuckets g 0).1, 0)] ∧ (entAt s 0 0 (tblBuckets g 0).1 0).isSome = true) ∧
    (let g : TgeoRec := ⟨2, 0, 2, 0, 0, 8, 0⟩
     (tgeoRec (tabled []) 2).map (·.kind) = some 2 ∧ (tblStaged (tabled []) .pf g).isSome = true) ∧
    (let g : TgeoRec := ⟨1, 0, 1, 0, 0, 8, 0⟩
     amIndex (tabled []) .pf g = some 0 ∧ tblStaged (tabled []) .pf g = some 0 ∧
       tblKey g (reqWords (tabled []) .pf 0x3401060 10) = some 0 ∧ (0 : Nat) < 2 ^ (8 * keyBytes g) ∧ mfind (tabled []).tbl.am 0 = none) := by
  unfold mayWrite; refine ⟨?_, ?_, ?_, ?_, ?_⟩ <;> decide

theorem wit_AgingAndLearning :
    (let s := withR [(0x3408008, 0x80000001)] (tabled [])
     (tgeoRec s 2).map (·.kind) = some 2 ∧ rb s 0x3408008 31 = true ∧ mfind s.tbl.sweep (swKey 2 3) = none ∧ sweepDue s 2 3 = true) ∧
    (let s : State := { tabled [] with tbl := { base.tbl with sweep := [(swKey 2 0, 0)] } }
     mfind s.tbl.sweep (swKey 2 0) = some 0 ∧ (0 : Nat) + 1 < tblNB ⟨2, 0, 2, 0, 0, 8, 0⟩) ∧
    (mayRead .pf 0x3801404 base ∧ reqFor base .pf 0 = true ∧ mayRead (.vf 0) 0x3801404 (twoInst base) ∧
      reqFor (twoInst base) (.vf 0) 0 = false) ∧
    (rb (withR [(lrnCfg 0 0, 0x40000000)] base) (lrnCfg 0 0) 30 = true ∧ rb base (lrnCfg 0 0) 30 = false ∧ lrnLen base 0 0 = 0) ∧
    (let s := withR [(lrnCfg 0 0, 0x94000000), (lrnSts 0 0, 1)] base
     rb s (lrnCfg 0 0) 30 = false ∧ rb s (lrnCfg 0 0) 31 = true ∧ lrnLen s 0 0 ≠ 0) := by
  unfold mayRead; decide

/-- Queue 0 leads through its two nodes to port 0; its packet is in cell 7. -/
def queued (place : Nat) : State :=
  { flowing with tm := { base.tm with qs := [(0, { pkts := [⟨7, place⟩], avgN := 0, avgE := 0 })], cred := [(0, ⟨0, 0, some 500⟩)] } }

set_option maxRecDepth 20000 in
theorem wit_TrafficManager :
    (flowing.port.toTm = [7] ∧ running flowing 24 0 = true ∧ packet0.inst < 32 ∧ packet0.queue < 65536 ∧
      qPath { flowing with img := { image0 with qhie := [] } } 0 = none) ∧
    (qPath flowing 0 = some (0, 0, 0) ∧ rf (withR [(0x3A88800, 0)] flowing) 0x3A88800 19 0 < occI flowing 0 + packet0.cells) ∧
    (let s := withR [(0x3A88800, 4), (tmQCfg 0 + 4, 0)] flowing
     occI s 0 + packet0.cells ≤ rf s 0x3A88800 19 0 ∧ rf s (tmQCfg 0 + 4) 19 0 < occQ s 0 + packet0.cells) ∧
    (let s := withR [(0x3A88800, 4), (tmQCfg 0 + 4, 4), (0x3A8800C, 0)] flowing
     qPort s 0 = some 0 ∧ occI s 0 + packet0.cells ≤ rf s 0x3A88800 19 0 ∧ occQ s 0 + packet0.cells ≤ rf s (tmQCfg 0 + 4) 19 0 ∧
       rf s (tmQCfg 0) 31 30 ≠ 1 ∧ rb s (tmQCfg 0 + 8) 31 = false ∧ rf s 0x3A8800C 15 0 = 0 ∧ (gateOf s 0).on = false) ∧
    (portOffers base 1 = false ∧ portOffers flowing 0 = true ∧ ∀ q ∈ portQs flowing 0, (tmQ flowing q).pkts = []) ∧
    (let s := queued 0
     portOffers s 0 = true ∧ kids s (nodeKey 3 0) = [nodeKey 2 0] ∧ kids s (nodeKey 2 0) = [nodeKey 1 0] ∧
       qRec s 0 = some ⟨0, 0, 0, 0, 0, 0⟩ ∧ (tmQ s 0).pkts = [⟨7, 0⟩] ∧ portPaused s 0 0 = false ∧ (gateOf s 0).pend = none ∧
       edLen s packet0 < 100000000 ∧ mget s.port.paused 0 0 = 0) ∧
    (mayWrite .pf (tmPortCmd 0) base) ∧
    ((credOf (queued 0) (credKey 0 0)).due = some 500 ∧ (queued 0).clk.fab < 500 ∧ (queued 0).tm.next = none) ∧
    ((tmQ (queued 1) 0).pkts.find? (fun y => y.place == 1) = some ⟨7, 1⟩ ∧
      (tmQ (queued 3) 0).pkts.find? (fun y => y.place == 3) = some ⟨7, 3⟩) ∧
    (let s := withR [(tmQCfg 0 + 8, 4)] (queued 2)
     (tmQ s 0).pkts = [] ++ ⟨7, 2⟩ :: [] ∧ (0 : Nat) < min (rf s (tmQCfg 0 + 8) 17 0) 512 ∧ (packet0.cells : Int) ≤ sharedFree s) := by
  unfold mayWrite; refine ⟨?_, ?_, ?_, ?_, ?_, ?_, ?_, ?_, ?_, ?_⟩ <;> decide

theorem wit_Gates :
    (mayWrite .pf (tmPortCmd 0) base ∧ (gateOf base 0).pend = none ∧ ptpNs base + 2000 ≤ gateBase (withR [(0x3A8A000, 2000)] base) 0) ∧
    (gateBase base 0 < ptpNs base + 2000 ∧ rf (withR [(0x3A8A00C, 1000)] base) 0x3A8A00C 29 0 ≠ 0) ∧
    (let s : State := { base with tm := { base.tm with gate := [(0, { TGate.init with pend := some 500, on := true })] } }
     (gateOf s 0).pend = some 500 ∧ ptpNs s < 500 ∧ (gateOf s 0).on = true ∧
       500 ≤ ptpNs { s with clk := { s.clk with ns := 500 } }) ∧
    (mayWrite .pf 0x3A0410C base ∧ gclMay base .pf = true ∧ (gateOf base 0).bank ≤ 1 ∧ (gclAt base 0 0 0).1 < 256 ∧
      (gclAt base 0 0 0).2 < 2 ^ 30 ∧ (gateOf base 0).on = false) := by
  unfold mayWrite; decide

/-- Channel 0 is populated and trained. -/
def trained : State := withR [(chSts 0, 0xC0000000)] base

/-- A read, and a write, at DRAM address 0. -/
def read0 : DReq := { seq := 0, port := 0, inst := 0, addr := 0, len := 64, data := none, at_ := 0, issued := false, held := false }
def write0 : DReq := { read0 with data := some (List.replicate 64 1) }

/-- A subchannel of the trained channel. -/
def withSub (d : DSub) : State := setDsub (dramMap trained 0).1 d trained

theorem wit_DramRequests :
    (running trained 27 0 = true ∧ 0 < chCount trained ∧ 64 ≤ 64 - 0 % 64 ∧ dramRegion trained read0 = true ∧ (dramMap trained 0).1 = 0 ∧
      scHolds trained 0 = false ∧ (dsub trained 0).q = [] ∧ scFailed trained 0 = false ∧ (dsub trained 0).wq.length < 64) ∧
    (dramRegion trained { read0 with addr := 64 * 1048576 } = false ∧ mget trained.dmc.outr 0 [] = []) ∧
    (let s := withSub { DSub.init with q := [read0] }
     active s 27 0 = true ∧ scPresent s 0 = true ∧ (dsub s 0).alert = 0 ∧ (dsub s 0).slice = false ∧ chLevel s 0 ≠ 2 ∧
       (dsub s 0).refDue = [] ∧ rfmBank s (dsub s 0) = none ∧ (dsub s 0).thro = [] ∧ (dsub s 0).q = [read0] ∧ (dsub s 0).wq = [] ∧
       mfind (dsub s 0).banks (dramMap s 0).2.1 = none) ∧
    ((dsub (withSub { DSub.init with wq := [write0] }) 0).wq = [write0] ∧ write0.data.isSome = true) ∧
    (let s := withSub { DSub.init with banks := [((dramMap trained 0).2.1, ⟨(dramMap trained 0).2.2, 0⟩)] }
     (mfind (dsub s 0).banks (dramMap s 0).2.1).map (·.row) = some (dramMap s 0).2.2) ∧
    (let s := withSub { DSub.init with banks := [((dramMap trained 0).2.1, ⟨(dramMap trained 0).2.2 + 1, 0⟩)] }
     (mfind (dsub s 0).banks (dramMap s 0).2.1).map (·.row) = some ((dramMap s 0).2.2 + 1)) ∧
    (let s := withSub { DSub.init with q := [{ read0 with issued := true }] }
     let s : State := { s with dmc := { s.dmc with outr := [(0, [⟨0, false, 0, []⟩])] } }
     (dsub s 0).q = [{ read0 with issued := true }] ∧ (dsub s 0).rwin = [] ∧ mget s.dmc.outr 0 [] = [⟨0, false, 0, []⟩] ∧
       mget s.dmc.bad 0 false = false) := by decide

theorem wit_DramUpkeep :
    (active trained 27 0 = true ∧ scPresent trained 0 = true ∧ chLevel trained 0 < 2) ∧
    ((dsub (withSub { DSub.init with refDue := [(0, 5)] }) 0).refDue = [(0, 5)]) ∧
    ((dsub { trained with clk := { trained.clk with fab := 64000000 } } 0).winAt + rhWindow (dsub trained 0) ≤ 64000000) ∧
    (mfind (dsub (withSub { DSub.init with banks := [(63, ⟨1, 0⟩)] }) 0).banks 63 = some ⟨1, 0⟩ ∧
      rf (withR [(0x3E08040, 0)] trained) 0x3E08040 15 0 ≤ trained.clk.fab) ∧
    (sliceDue (withR [(0x3E0804C, 0)] trained) 0 0 = true ∧ (dsub trained 0).q = [] ∧ (dsub trained 0).wq = []) ∧
    (sliceDue (withR [(0x3E0804C, 0)] trained) 0 (rf (withR [(0x3E0804C, 0)] trained) 0x3E0804C 15 10 * 1000000) = true) ∧
    (let d := dsub (withSub { DSub.init with slice := true, slices := 255 }) 0
     d.slice = true ∧ d.hold = [] ∧ d.bp = [] ∧ d.slices < 256) ∧
    ((dsub (withSub { DSub.init with alert := 1 }) 0).alert = 1 ∧ (dsub (withSub { DSub.init with alert := 2 }) 0).alert = 2 ∧
      (dsub trained 0).alert ≠ 2 ∧ scFailed trained 0 = false) ∧
    (mayWrite .pf 0x3E03000 trained ∧ rb trained (chSts 0) 30 = true ∧ chLevel trained 0 = 0 ∧
      chLevel (withR [(chSts 0, 0xC1000000)] base) 0 = 1 ∧ chLevel (withR [(chSts 0, 0xC2000000)] base) 0 = 2 ∧
      chLevel (withR [(chSts 0, 0xC3000000)] base) 0 = 3) ∧
    (mfind [(0, 2)] 0 = some 2 ∧ (dsub (withSub { DSub.init with q := [read0] }) 0).q ≠ []) ∧
    (let s : State := { base with boot := { base.boot with trained := none } }
     s.boot.phase ≠ 0 ∧ s.boot.trained = none ∧ popChans 15 = some 4) := by
  unfold mayWrite; refine ⟨?_, ?_, ?_, ?_, ?_, ?_, ?_, ?_, ?_, ?_, ?_⟩ <;> decide

/-- Rings 0, 8 and 16 of the physical function are enabled with 256 entries; 0 and 8 hold one. -/
def ringed : State :=
  let s := withR [(rcfg 0 0, 0x88000000), (rcfg 0 8, 0x88000000), (rcfg 0 16, 0x88000000), (0x1009100, 8192)] base
  { s with
    hif := { s.hif with rings := [(0, { Ring.init with host := 1 }), (8, { Ring.init with host := 1, irqDue := true })] }
    port := { s.port with toTx := [⟨7, 64, 0, List.replicate 64 7, none⟩] } }

theorem wit_HostRings :
    (mayWrite .pf (0x3F05000) ringed ∧ (5 + 2 ^ 17 - (ringOf ringed 0 0).dev) % 2 ^ 17 ≤ 2 ^ rf ringed (rcfg 0 0) 28 24 ∧
      2 ^ rf ringed (rcfg 0 0) 28 24 < (257 + 2 ^ 17 - (ringOf ringed 0 0).dev) % 2 ^ 17) ∧
    (mayWrite .pf (rcfg 0 1) ringed ∧ expertDenied ringed (rcfg 0 1) = false ∧ rb ringed (rcfg 0 1) 31 = false ∧
      rcfgLegal 0 1 (setBit 0x08000000 31 true) = true ∧ fnRuns ringed 0 = true ∧ fnRuns ringed 1 = false) ∧
    (txNext ringed = some (0, 0) ∧ running ringed 28 0 = true ∧ txDescOk 60 0 = true ∧ txDescOk 13 0 = false ∧
      portInst ringed 64 = some 0 ∧ pktOf ringed 0 = none ∧ ringed.port.hostUsed + cdiv 60 256 ≤ rf ringed 0x1009100 17 0) ∧
    (txTake ringed.port.toTx 64 = some (⟨7, 64, 0, List.replicate 64 7, none⟩, []) ∧ ringLive ringed 0 8 = true ∧
      ringLive ringed 0 16 = true ∧ ringLen ringed 0 8 ≠ 0 ∧ ringLen ringed 0 16 ≠ ringSize ringed 0 16 ∧
      rb ringed (rcfg 0 16) 11 = false) ∧
    ((ringOf ringed 0 8).irqDue = true ∧ (ringOf ringed 0 8).irqAt = none ∧
      bit (msixWord ringed 0 12) 0 = true ∧
      bit (msixWord { ringed with hif := { ringed.hif with msix := [(12, 0)] } } 0 12) 0 = false) := by
  unfold mayWrite; decide

theorem wit_PcieFunctions :
    (rb base 0x3F01004 31 = false ∧ rb (withR [(0x3F01004, 0x80000002)] base) 0x3F01004 31 = true ∧
      (1 : Nat) < rf (withR [(0x3F01004, 0x80000002)] base) 0x3F01004 5 0) ∧
    (let s : State := { twoInst base with insSt := [(0, .run), (1, .run)] }
     portInst s 65 = some 1 ∧ insState s 1 = .run) ∧
    (base.load.phase ≠ 1 ∧ { Load.init with phase := 1 }.phase = 1) := by decide

/-- The image's second instance is not yet created, or stands in a state. -/
def second (st : InsSt) : State := { twoInst base with insSt := mput [(0, .run)] 1 st .absent }

theorem wit_InstanceCommands :
    (mayWrite .pf 0x3F81000 base ∧ stwUp base = true ∧ base.ctl.cur = none ∧ base.load.phase = 0) ∧
    (let s := withR [(0x3F01004, 0x80000001)] (second .absent)
     insState s 1 = .absent ∧ (instRec s 1).isSome = true ∧ insVfOk s 1 = true ∧ instRec s 2 = none) ∧
    (insState base 0 = .run ∧ insState (second .run) 1 = .run ∧ insState (second .creating) 1 = .creating ∧
      insVfOk (withR [(0x3F01004, 0x80000001)] (second .reset)) 1 = true ∧ insState (second .reset) 1 = .reset ∧
      insState (second .resetting) 1 = .resetting ∧ mget (second .resetting).ctl.after 1 0 = 0) ∧
    ({ Ctl.init with cur := some (32, 1, 1) }.cur.isSome = true ∧ stwUp (withR [(0x181000, 0x80000000)] base) = false) ∧
    (mayWrite .pf 0x3F81300 base ∧ posyRec base 1 = some ⟨1, false, 0, 0, 0, 0, 0⟩ ∧ supOf base 1 = some 0 ∧ (thr base 0).st ≠ .getw ∧
      (thr base 0).evq.length < 16 ∧ (thr base 0).fq = []) ∧
    (16 ≤ (thr (thrMod 0 (fun t => { t with evq := List.replicate 16 ⟨0x69, 1, 0, 0, 0, 0, 0⟩ }) base) 0).evq.length) := by
  unfold mayWrite; decide

theorem wit_FunctionAborts :
    (mayWrite .pf 0x3F81200 ringed ∧ stwUp ringed = true ∧ cmdBusy .pf 0x3F81200 ringed = false ∧
      mhas ringed.ctl.fab (reqIdx .pf) = false ∧ insState ringed 0 = .run ∧ portInst ringed 64 = some 0) ∧
    (posyRec ringed 1 = some ⟨1, false, 0, 0, 0, 0, 0⟩ ∧ (unitsOf ringed 0).testBit 6 = true ∧ clusterInst ringed 0 = some 0 ∧
      (instRec ringed 0).map (·.inst) = some 0) ∧
    (portInst (second .reset) 65 = some 1 ∧ insState (second .reset) 1 ≠ .run) ∧
    (mfind [(reqIdx .pf, (⟨3, 5⟩ : FabRec))] (reqIdx .pf) = some ⟨3, 5⟩) := by
  unfold mayWrite; decide

theorem wit_SecurityCommands :
    (mayWrite .pf 0x281000 base ∧ stwUp base = true ∧ rb base (secSts .pf) 31 = false) ∧
    (lcState base ≠ 3 ∧ lcState (withR [(0x201400, 0x30000)] base) = 3) ∧
    (mayWrite .pf 0x201500 base ∧ rb base (fusSts .pf) 31 = false ∧ arbLimit base 1 < 64 ∧ 0 ≤ arbLimit base 1 ∧
      arbLimit { base with sec := { base.sec with arbImg := (1, 64) } } 1 = 64 ∧ arbValue base 1 < 64 ∧ base.sec.fuse.isNone = true ∧
      base.boot.wait = none) ∧
    (let q : AttReq := ⟨32, false, 0, []⟩
     [q].head? = some q ∧ base.sec.attBlk.isNone = true ∧ lmsCur base = none) ∧
    (base.boot.phase = 3 ∧ scanOk .pf base = true ∧ State.reset.boot.phase = 0) ∧
    (tokBad (List.replicate 4288 0) = true) := by
  unfold mayWrite; refine ⟨?_, ?_, ?_, ?_, ?_, ?_⟩ <;> decide

/-- A load of a partial image stands at its check, or has sections left to commit. -/
def loading (phase : Nat) (todo : List Nat) : State := { base with load := { Load.init with phase := phase, todo := todo } }

theorem wit_ImageLoading :
    (mayWrite .pf 0x48100C base ∧ rb base 0x481010 31 = false ∧ base.ctl.cur = none ∧ base.load.phase = 0) ∧
    (rb (withR [(0x481010, 0x80000000)] base) 0x481010 31 = true ∧ stwUp base = true) ∧
    ((loading 1 []).boot.phase = 3 ∧ (loading 1 []).load.phase = 1 ∧
      (match partCheck (loading 1 []) 0 [] with
        | .inl e => decide (e.st < 256)
        | .inr _ => false) = true) ∧
    ((loading 2 [9]).load.todo = [9] ∧ (loading 2 [9]).load.kept = false ∧ pgrfReady (loading 2 [9]) = true ∧
      loadSettled (loading 2 [9]) = true) ∧
    ((loading 2 [9]).load.since + 100000000 ≤ { (loading 2 [9]) with clk := ⟨100000000, 0, 0, 0, 0⟩ }.clk.fab) ∧
    (let s := { loading 2 [] with cores := { base.cores with thr := [(0, thread0)] }, ctl := { Ctl.init with moves := [(0, true)] } }
     (0, true) ∈ s.ctl.moves ∧ (0, false) ∉ s.ctl.moves ∧ reshapePoint s 0 = true ∧ s.load.todo = []) ∧
    (let s := { loading 2 [] with cores := { base.cores with thr := [] }, ctl := { Ctl.init with moves := [(0, false)] } }
     (0, false) ∈ s.ctl.moves ∧ (0, true) ∉ s.ctl.moves ∧ reshapePoint s 0 = true) ∧
    ((loading 2 []).load.phase = 2 ∧ (loading 2 []).load.todo = [] ∧ loadSettled (loading 2 []) = true) := by
  unfold mayWrite; refine ⟨?_, ?_, ?_, ?_, ?_, ?_, ?_, ?_⟩ <;> decide

theorem wit_ErrorCollector :
    (rb base (ercRec 0x91 0) 31 = false) ∧
    (let s := withR [(ercRec 0x91 0, 0x84000000)] base
     rb s (ercRec 0x91 0) 31 = true ∧ (1 : Nat) ≤ rf s (ercRec 0x91 0) 27 26 ∧ rf s (ercRec 0x91 0) 27 26 < 3) ∧
    (mayWrite .pf 0x382010 base ∧ mayWrite .pf 0x382014 base ∧ pktOf base 7 ≠ none ∧ stwUp base = true) ∧
    ([[(1 : Word)]] = [1] :: []) ∧ (388 : Nat) < mramUsed := by
  unfold mayWrite; refine ⟨?_, ?_, ?_, ?_, ?_⟩ <;> decide

/-- The journal in a state, with one position taken. -/
def journal (st : JSt) (rp : RpSt) : State := { base with jnl := { base.jnl with st := st, rp := rp } }

/-- A script of one PACKET record: eight bytes of zeros on port 0. -/
def scripted : State :=
  let s := withR [(0x408108, 1), (0x1009100, 8192)] (journal .idle .run)
  let w := 8 * 2 ^ 26 + (crcR crc32cPoly 0xFFFFFFFF (List.replicate 8 0) ^^^ 0xFFFFFFFF) % 65536 * 4
  { s with
    dsp := State.reset.dsp
    dram := memWrN [] 0 0 (leBytes 8 w ++ leBytes 8 (2 * 2 ^ 62 + 8 * 2 ^ 48)) }

set_option maxRecDepth 20000 in
theorem wit_JournalAndReplay :
    (mayWrite .pf 0x401200 base ∧ base.jnl.st = .idle ∧ (blkGet base 7 0).idleReq = false ∧ base.jnl.lostAll = 0 ∧
      base.jnl.staged.length + 8 ≤ 32768) ∧
    ((journal .run .idle).jnl.st = .run ∧ rb (withR [(0x408010, 8)] (journal .run .idle)) 0x408010 3 = true ∧
      (journal .frozen .idle).jnl.st = .frozen ∧ (journal .post .idle).jnl.st = .post) ∧
    ((journal .post .idle).jnl.trigAt + rf (withR [(0x408000, 0)] base) 0x408000 15 0 * 1000 ≤ base.clk.fab) ∧
    (mayWrite .pf 0x401300 base ∧ base.jnl.rp = .idle ∧ (journal .idle .paused).jnl.rp = .paused) ∧
    (rpLen (journal .idle .run) ≤ (journal .idle .run).jnl.rpPos) ∧
    (scripted.jnl.rpPos < rpLen scripted ∧ nbits (rpWord scripted 0) 63 62 = 0 ∧ rpEmpty scripted = true ∧
      nbits (rpWord scripted 1) 63 62 = 2 ∧ nbits (rpWord scripted 0) 39 26 = nbits (rpWord scripted 1) 61 48 ∧
      nbits (rpWord scripted 0) 17 2 = (crcR crc32cPoly 0xFFFFFFFF (List.replicate 8 0) ^^^ 0xFFFFFFFF) % 65536 ∧
      scripted.port.hostUsed + cdiv 8 256 ≤ rf scripted 0x1009100 17 0 ∧ pktOf scripted 0 = none) ∧
    (let s : State := { scripted with dram := memWrN [] 0 0 (leBytes 8 0 ++ leBytes 8 (2 ^ 62)) }
     nbits (rpWord s 0) 63 62 = 0 ∧ nbits (rpWord s 1) 63 62 ≠ 2) ∧
    (let s : State := { scripted with dram := memWrN [] 0 0 (leBytes 8 (2 ^ 62 + 3 * 2 ^ 33)) }
     nbits (rpWord s 0) 63 62 = 1 ∧ nbits (rpWord s 0) 37 33 ≠ rpSrc s) := by
  unfold mayWrite; refine ⟨?_, ?_, ?_, ?_, ?_, ?_, ?_, ?_⟩ <;> decide

theorem wit_DeviceResets :
    (base.sec.fuse.isNone = true ∧ { base.boot with hot1 := true }.hot1 = true ∧ base.boot.phase ≠ 0 ∧
      155 * 16 ≤ (hottest (List.replicate 16 2480)).2 ∧ (hottest (List.replicate 16 2479)).2 < 155 * 16) ∧
    (State.reset.boot.phase = 0 ∧ State.reset.boot.hot = false ∧ { State.reset.boot with hot := true }.hot = true) ∧
    (mayWrite .pf 0x181100 base ∧ stwUp base = true ∧ stwUp (withR [(0x181000, 0x80000000)] base) = false ∧
      (fwHead base []).isSome = true) ∧
    ({ base.boot with phase := 1 }.phase = 1 ∧ mayWrite .steward 0x181104 base) ∧
    (healthy base = false ∧ healthy { base with hb := { base.hb with kick := some 0 } } = true ∧ (0 : Nat) + 1000000 ≤ 1000000) := by
  unfold mayWrite; refine ⟨?_, ?_, ?_, ?_, ?_⟩ <;> decide

theorem wit_ThermalHistogram :
    let t (w : Word) : Int := (BitVec.ofNat 16 (rf (withR [(0x1140, w)] base) 0x1140 15 0)).toInt
    t 0xFDCF < -35 * 16 ∧ (-40 + 5 * (1 : Int)) * 16 < t 0xFDD1 ∧ t 0xFDD1 < (-35 + 5 * (1 : Int)) * 16 ∧
    (-40 + 5 * (37 : Int)) * 16 < t 0x95F ∧ t 0x95F < (-35 + 5 * (37 : Int)) * 16 ∧ 150 * 16 < t 0x961 := by decide

theorem wit_MateHeartbeat :
    base.boot.phase ≠ 0 ∧ rb (withR [(0x181040, 8)] base) 0x181040 3 = true ∧ rb base 0x181040 3 = false ∧
    (600 : Nat) ≤ 0 + 600 ∧ 0 + 600 < (601 : Nat) ∧ 0 + 4000 ≤ (4000 : Nat) ∧ (3999 : Nat) < 0 + 4000 := by decide

theorem wit_IdleTick :
    (State.reset.pending = [] ∧ State.reset.boot.phase = 0) ∧
    (base.pending = [] ∧ base.boot.phase ≠ 0 ∧ (blkGet base 11 0).st ≠ .reset ∧ rv (withR [(0xE08000, 0)] base) 0xE08000 = 0 ∧
      base.clk.ns < 999999999 ∧ base.clk.frac < 2 ^ 40 ∧ (blkGet State.reset 11 0).st = .reset ∧ active base 27 0 = true) := by decide

theorem wit_PetalDecodeOfEncode :
    ∀ p ∈ [(POp.ld, { bare 3 14 0 0x90 with size := 4, pred := 4, imx := true }), (.hmsg, { bare 0 0 0 0 with co := true, pred := 2 }),
      (.add, bare 15 15 15 0), (.mtc, bare 0 15 0 111), (.crc16n, bare 15 15 0 2), (.gett, bare 15 15 0 18), (.bcc, bare 9 0 0 0x7FFF)],
      formLegal p.1 p.2 (0x100 + formLen p.1 p.2) = true := List.all_eq_true.mp (by decide)

/-! ### Worked encodings -/

/-- The loop of 07, "Encoding a loop", byte by byte. -/
theorem test_decode_loop_sequence :
    decodesTo [0x11, 0x30, 0x08] 0x0100 .movi (bare 3 0 0 8) ∧ decodesTo [0x86, 0x30, 0x0B, 0x00] 0x0109 .loopOp (bare 3 0 0 0xB) ∧
    decodesTo [0xE1, 0x50, 0x54, 0x10, 0x00] 0x010D .ld { bare 5 4 0 0x10 with size := 2 } ∧
    decodesTo [0x28, 0x40, 0x02] 0x0112 .addi (bare 4 0 0 2) ∧ decodesTo [0x18, 0x66, 0x50] 0x0115 .add (bare 6 6 5 0) ∧
    decodesTo [0xE4, 0x80, 0xE1, 0xFF] 0x011B .br { bare 0 0 0 (-0x1F) with pred := 1 } := by
  unfold decodesTo
  refine ⟨?_, ?_, ?_, ?_, ?_, ?_⟩ <;> decide

/-- Two predicates on one instruction are ILLEGAL_OP (07, the first variant of the loop; R236). -/
theorem test_decode_repeated_class : petalDecode [0xE4, 0xE5, 0x80, 0xE1, 0xFF] 0x011B = none := by decide

/-- A reserved prefix, the filler byte, pass-down unit 7, LDS without a size, a non-zero bits [3:0] of F6 byte 2 and an IMX on a format
that has none are ILLEGAL_OP (R236). -/
theorem test_decode_illegal :
    petalDecode [0xEA, 0x00] 0 = none ∧ petalDecode [0xFE] 0 = none ∧ petalDecode [0xF7, 0x80, 0x00] 0 = none ∧
    petalDecode [0x52, 0x12, 0x00, 0x00] 0 = none ∧ petalDecode [0x18, 0x66, 0x51] 0 = none ∧
    petalDecode [0xE8, 0x10, 0x12] 0 = none := by
  refine ⟨?_, ?_, ?_, ?_, ?_, ?_⟩ <;> decide

/-- The escape page and the traps: MULW (FC 00), DIV (FC 02), FRCREL (FD 00), GETT (FD 01) and BREAK (R234). -/
theorem test_decode_escape :
    decodesTo [0xFC, 0x00, 0x23] 0 .mulw (bare 2 3 0 0) ∧ decodesTo [0xFC, 0x02, 0x23] 0 .divOp (bare 2 3 0 0) ∧
    decodesTo [0xFD, 0x01, 0x21, 0x10] 0 .gett (bare 2 1 0 16) ∧ decodesTo [0xFF] 0 .breakOp (bare 0 0 0 0) := by
  unfold decodesTo
  refine ⟨?_, ?_, ?_, ?_⟩ <;> decide

/-- Locks, channels and special registers: LOCK C0, AFADD C6, EVSIG CC, MFS D2 of selector 4 (R230). -/
theorem test_decode_locks_system :
    decodesTo [0xC0, 0x02] 0 .lock (bare 0 2 0 0) ∧ decodesTo [0xE9, 0xC6, 0x12, 0x30] 0 .afadd { bare 1 2 3 0 with co := true } ∧
    decodesTo [0xCC, 0x12] 0 .evsig (bare 1 2 0 0) ∧ decodesTo [0xD2, 0x10, 0x04] 0 .mfs (bare 1 0 0 4) := by
  unfold decodesTo
  refine ⟨?_, ?_, ?_, ?_⟩ <;> decide

/-- Pass-down: CLK of unit 0, MTC of c5 of unit 1, MFC of c5, and the GO forms of CRY KEYREF and GCM_ENC (R232; 10, the command codes). -/
theorem test_decode_passdown :
    decodesTo [0xF1, 0x05, 0x03] 0 .mtc (bare 0 3 0 (0x15)) ∧ decodesTo [0xF1, 0x45, 0x30] 0 .mfc (bare 3 0 0 (0x15)) ∧
    decodesTo [0xF0, 0x81, 0x00] 0 .keyref (bare 0 0 0 0) ∧ petalDecode [0xF0, 0x81, 0x01] 0 = none := by
  unfold decodesTo
  refine ⟨?_, ?_, ?_, ?_⟩ <;> decide

/-- The fused opcodes: CRC32C.W, TPZ, FIN and BFSET (R233, R289). -/
theorem test_decode_fused :
    decodesTo [0xF8, 0x02, 0x12] 0 .crc32c (bare 1 2 0 2) ∧ decodesTo [0xF9, 0x01, 0x12] 0 .tpz (bare 1 2 0 0) ∧
    decodesTo [0xFA, 0x03, 0x10] 0 .finOp (bare 1 0 0 0) ∧ decodesTo [0xFB, 0x00, 0x02] 0 .bfset (bare 0 2 0 0) := by
  unfold decodesTo
  refine ⟨?_, ?_, ?_, ?_⟩ <;> decide

set_option maxRecDepth 20000 in
/-- The CRC example of R289: nine bytes from 0xFFFFFFFF, inverted at the end, give 0xE3069283. -/
theorem test_crc32c_example :
    crcR crc32cPoly 0xFFFFFFFF [0x31, 0x32, 0x33, 0x34, 0x35, 0x36, 0x37, 0x38, 0x39] ^^^ 0xFFFFFFFF = 0xE3069283 := by decide

/-! ### Well-formedness: one ill-formed command for each check, and the nearest well-formed one -/

/-- Thread 0 of core 0. -/
def th0 : Thr := ⟨0, 0⟩

theorem test_wf_no_register_byte : wf (.drop th0 (bare 1 0 0 0)) = false ∧ wf (.drop th0 (bare 0 0 0 0)) = true := by decide

theorem test_wf_rt_outside_f6 : wf (.mov th0 (bare 1 2 3 0)) = false ∧ wf (.add th0 (bare 1 2 3 0)) = true := by decide

theorem test_wf_immediate : wf (.addi th0 (bare 1 0 0 0x80)) = false ∧ wf (.addi th0 { bare 1 0 0 0x80 with imx := true }) = true := by
  decide

theorem test_wf_undefined_bytes :
    wf (.nop th0 (bare 0 0 0 0) (List.replicate 12 0xFE)) = false ∧ wf (.nop th0 (bare 0 0 0 0) [0xFE]) = true := by decide

theorem test_wf_register_offset :
    wf (.registerWrite .pf 0x181105 15 0) = false ∧ wf (.registerWrite .pf (2 ^ 26) 15 0) = false ∧
    wf (.registerWrite .pf 0x181104 15 0) = true := by decide

theorem test_wf_block_copy :
    wf (.idleReqWrite .pf 11 1 true) = false ∧ wf (.idleReqWrite .pf 11 0 true) = true ∧ wf (.blockDrainDone 11 1) = false ∧
    wf (.blockDrainDone 11 0) = true := by decide

theorem test_wf_h_field : wf (.hFieldCommit 0x181104) = false ∧ wf (.hFieldCommit 0x1808000) = true := by decide

theorem test_wf_frames :
    wf (.frameReceive 0 [] true 0 0) = false ∧ wf (.flowctlFrameReceive 0 []) = false ∧
    wf (.flowctlFrameReceive 0 (List.replicate 64 0)) = true := by decide

theorem test_wf_dram_request :
    wf (.dramRequest 0 0 0 0 none) = false ∧ wf (.dramRequest 0 0 0 2 (some [1])) = false ∧ wf (.dramRequest 0 0 0 2 (some [1, 2])) = true := by
  decide

/-! ### Reset -/

/-- Before power-on boot nothing waits, nothing moves, and a step idles. -/
theorem test_reset_idles : step State.reset = .next State.reset := by rfl

/-- No word spells a command: the table gives no bits. -/
theorem test_no_word : decodeTableWord 32 0x12345678 = none ∧ State.reset.withFetchWord 32 0x12345678 = State.reset := by decide

end Sys2Proof.Tests
end

section
/-! SUPPORT. A register write as the physical function and the steward make it: what each stage of the judgement answers, and what the
stored, shadowed and rejected writes leave alone. Then the statement on register writes. -/

namespace Sys2Proof.Machine

/-! ### The stages before a register's own rules (00 R12, 20 R521, R526, R528) -/

/-- While no FLR of the physical function runs, its writes and the steward's are judged against the map. -/
theorem exec_registerWrite_map {r : Req} {s : State} (hr : r = .pf ∨ r = .steward) (hflr : mget s.ctl.flr 0 false = false)
    (off : Nat) (be : BitVec 4) (w : Word) : exec (.registerWrite r off be w) s = .next (regWrite r off be w s) := by
  show execRegisterWrite r off be w s = _
  rcases hr with rfl | rfl
  · simp [execRegisterWrite, hflr]
  · rfl

theorem regWrite_partial {off : Nat} {be : BitVec 4} (hmsix : ¬(0x40000 ≤ off ∧ off < 0x42040)) (hbe : be ≠ 15) (r : Req) (w : Word)
    (s : State) : regWrite r off be w s = accErr r 1 off s := by
  unfold regWrite
  rw [if_neg (by simpa using hmsix), if_pos hbe]

theorem regWrite_whole {r : Req} {off : Nat} {s : State} (hmsix : ¬(0x40000 ≤ off ∧ off < 0x42040)) (hacc : mayWrite r off s)
    (w : Word) : regWrite r off 15 w s = regWriteDo r off w s := by
  unfold mayWrite at hacc
  unfold regWrite
  rw [if_neg (by simpa using hmsix), if_neg (by simp), hacc]

/-- A register that is no header, no basic register and starts no command is written by its class and fields alone. -/
theorem regWriteDo_plain {r : Req} {off : Nat} {w : Word} {s : State} {d : RegDesc} (hhdr : isHdr off = false)
    (hbasic : onBasic off = false) (hrow : regRow off = some d) (hden : expertDenied s off = false)
    (hcmd : regCmd r off w s = none) (hbusy : cmdBusy r off s = false) : regWriteDo r off w s = plainWrite r off d w s := by
  simp [regWriteDo, hhdr, hbasic, hrow, hden, hcmd, hbusy]

/-! ### A plain write (00 R15, R16, 01 R51) -/

/-- Only four blocks follow an accepted write of a register with an act of their own. -/
theorem regAfter_other {off : Nat} (hblk : blkOf off ∉ [12, 14, 16, 23]) (old : Word) (s : State) : regAfter off old s = s := by
  simp only [List.mem_cons, List.not_mem_nil, or_false, not_or] at hblk
  obtain ⟨h12, h14, h16, h23⟩ := hblk
  unfold regAfter
  split
  case h_5 => rfl
  all_goals contradiction

theorem regTake_direct {cls : RCls} (h : cls ≠ .h) (key off : Nat) (w : Word) (s : State) : regTake cls key off w s = rset s key w := by
  cases cls with
  | h => exact absurd rfl h
  | none | s | l => rfl

/-- Whether a commit point is now depends on register words and not on their shadows. -/
theorem hNow_shadow (off : Nat) (s : State) (m : List (Nat × Word)) :
    hNow off { s with regs := { s.regs with shadow := m } } = hNow off s := rfl

theorem regTake_shadow {off : Nat} {s : State} (h : hNow off s = false) (key : Nat) (w : Word) :
    regTake .h key off w s = { s with regs := { s.regs with shadow := mins s.regs.shadow key w } } := by
  simp [regTake, hNow_shadow, h]

/-- A write of a legal value that no state of its unit or block holds back is taken, and marks EXPERT (01 R51). -/
theorem plainWrite_taken {r : Req} {off : Nat} {d : RegDesc} {w : Word} {s : State} (hlegal : legalAt s off d w = true)
    (hgate : gateHeld s off = false) (hidle : d.cls = .s → blkIdle s (blkOf off) (copyOf off) = true)
    (hblk : blkOf off ∉ [12, 14, 16, 23]) : plainWrite r off d w s =
      expertSet off (regTake d.cls (regKey r off) off (d.apply (rShow s (regKey r off)) w) s) := by
  have hbusy : ¬(d.cls = .s ∧ blkIdle s (blkOf off) (copyOf off) = false) := fun ⟨hs, hn⟩ => by simp [hidle hs] at hn
  simp [plainWrite, hlegal, hgate, hbusy, regAfter_other hblk]

theorem plainWrite_rejected {off : Nat} {d : RegDesc} {w : Word} {s : State} (h : legalAt s off d w = false) (r : Req) :
    plainWrite r off d w s = cfgRej off s := by
  simp [plainWrite, h]

/-- The EXPERT mark is no register word. -/
@[simp] theorem expertSet_vals (off : Nat) (s : State) : (expertSet off s).regs.vals = s.regs.vals := by
  unfold expertSet; split <;> rfl

@[simp] theorem expertSet_shadow (off : Nat) (s : State) : (expertSet off s).regs.shadow = s.regs.shadow := by
  unfold expertSet; split <;> rfl

/-! ### The five clauses -/

/-- An H-class write leaves every register word and stands in the shadow (00 R16). -/
theorem plainWrite_shadowed {r : Req} {off : Nat} {d : RegDesc} {w : Word} {s : State} (hlegal : legalAt s off d w = true)
    (hgate : gateHeld s off = false) (hcls : d.cls = .h) (hnow : hNow off s = false) (hblk : blkOf off ∉ [12, 14, 16, 23]) :
    (∀ k, rv (plainWrite r off d w s) k = rv s k) ∧
      mfind (plainWrite r off d w s).regs.shadow (regKey r off) = some (d.apply (rShow s (regKey r off)) w) := by
  rw [plainWrite_taken hlegal hgate (by simp [hcls]) hblk, hcls, regTake_shadow hnow]
  exact ⟨rv_congr (by simp), by simp⟩

/-- GLB_EXPDENY accumulates the blocks named when none of them has EXPERT set (20 R528). -/
theorem expdeny_accumulates {v : Word} {s : State} (h : w32 (blkSum s (fun k => k.expert)) &&& v = 0) :
    expdeny v s = rset s 0x1028 (rv s 0x1028 ||| (v &&& 0x3FFFFFFF)) := by
  simp [expdeny, h]

theorem expdeny_rejected {v : Word} {s : State} (h : w32 (blkSum s (fun k => k.expert)) &&& v ≠ 0) :
    expdeny v s = cfgReject 0 0 s := if_pos (by simpa using h)

theorem exec_glbExpdeny {r : Req} {s : State} (h : mayWrite r 0x1028 s) (v : Word) :
    exec (.glbExpdeny r v) s = .next (expdeny v s) :=
  congrArg _ (asked_admitted h (expdeny v))

/-- An MSC field commits at any frame boundary, which the command itself stands for (log entry 20, the model's choice). -/
theorem exec_hFieldCommit_msc {off : Nat} {w : Word} {s : State} (hblk : blkOf off = 10) (hsh : mfind s.regs.shadow off = some w) :
    exec (.hFieldCommit off) s =
      .next { s with regs := { s.regs with vals := mins s.regs.vals off w, shadow := mdel s.regs.shadow off } } := by
  show execHFieldCommit off s = _
  simp [execHFieldCommit, hPoint, hblk, hCommit, hsh]

/-- Settles O18: each clause follows a write through the judgement of the map to the stage that answers it. -/
theorem registerWrites : Obligations.RegisterWrites := by
  unfold Obligations.RegisterWrites
  refine ⟨?whole, ?partialEnables, ?accumulate, ?reject, fun off w s => exec_hFieldCommit_msc⟩
  case whole =>
    intro r off v s d hr hflr hmsix hhdr hbasic hacc hrow hden hcmd hbusy hgate hblk
    have hexec : exec (.registerWrite r off 15 v) s = .next (plainWrite r off d v s) := by
      rw [exec_registerWrite_map hr hflr, regWrite_whole hmsix hacc, regWriteDo_plain hhdr hbasic hrow hden hcmd hbusy]
    refine ⟨fun _ hlegal hcls hidle => ?stored, fun _ hlegal hcls hnow => ?shadowed, fun hillegal => ?illegal⟩
    case stored =>
      show exec _ _ = _
      rw [hexec, plainWrite_taken hlegal hgate hidle hblk, regTake_direct hcls]
    case shadowed => exact ⟨_, hexec, plainWrite_shadowed hlegal hgate hcls hnow hblk⟩
    case illegal =>
      rw [plainWrite_rejected hillegal] at hexec
      exact ⟨_, hexec, rv_cfgReject _ _ s, cfgReject_sets _ _ s⟩
  case partialEnables =>
    intro r off be v s hr hflr hmsix hbe
    show exec _ _ = _
    rw [exec_registerWrite_map hr hflr, regWrite_partial hmsix hbe]
  case accumulate =>
    intro r v s hacc hfree
    show exec _ _ = _
    rw [exec_glbExpdeny hacc, expdeny_accumulates hfree]
  case reject =>
    intro r v s hacc hset
    exact ⟨_, exec_glbExpdeny hacc v, expdeny_rejected hset ▸ ⟨rv_cfgReject 0 0 s, cfgReject_sets 0 0 s⟩⟩

end Sys2Proof.Machine
end

section
/-! SUPPORT. The mailbox and the loading of images: what each stage of a load and of a boot writes, stated of its result or, as a
frame, of any reader of the state that does not look at what the stage writes. Then the statement on images. -/

namespace Sys2Proof.Machine

/-! ### Register bits, runs of registers, interrupts -/

theorem bit_setBits_one (w : Word) {n : Nat} (h : n < 32) : bit (setBits w n n 1) n = true := by
  have hmask : 2 ^ (n + 1) - 2 ^ n = 2 ^ n := by rw [Nat.pow_succ]; omega
  simp only [bit, setBits, fmask, hmask, Nat.one_mul, BitVec.getLsbD_or, BitVec.getLsbD_and, BitVec.getLsbD_ofNat, h, decide_true,
    Nat.testBit_two_pow_self, Bool.and_true, Bool.or_true]

theorem rb_rset (s : State) (k j : Nat) (w : Word) (n : Nat) : rb (rset s k w) j n = if j = k then bit w n else rb s j n := by
  unfold rb
  rw [rv_rset]
  split <;> rfl

/-- The words of an array of registers after all of them are written. -/
theorem rv_rsetRange (a : Nat) (f : Nat → Word) (n : Nat) (s : State) (k : Nat) :
    rv (foldS (List.range n) (fun w s => rset s (a + 4 * w) (f w)) s) (a + 4 * k) = if k < n then f k else rv s (a + 4 * k) := by
  induction n with
  | zero => rfl
  | succ n ih =>
    simp only [foldS, List.range_succ, List.foldl_append, List.foldl_cons, List.foldl_nil] at ih ⊢
    rw [rv_rset, ih]
    by_cases h : k = n
    · simp [h]
    · have hlt : k < n + 1 ↔ k < n := by omega
      rw [if_neg (by omega)]
      simp only [hlt]

/-- A reader that looks neither at MSI-X state nor at what was sent sees nothing of an interrupt, raised or not (20 R521). -/
theorem raiseMsixIf_keeps {β : Type} (g : State → β) (h : ∀ s hif outs, g { s with hif := hif, outs := outs } = g s) (c : Bool)
    (f v : Nat) (s : State) : g (if c then raiseMsix f v s else s) = g s := by
  cases c with
  | false => rfl
  | true =>
    show g (raiseMsix f v s) = g s
    unfold raiseMsix
    split
    · exact h s _ s.outs
    · exact h s s.hif _

/-! ### The mailbox (20 R531, R532) -/

/-- An admitted command of STW_MBCMD has begun: its OP is in the register and STW_MBSTS reads BUSY. -/
def mbTaken (op : Nat) (s : State) : State :=
  rset (rset s 0x48100C (w32 op)) 0x481010 (setBits (rv s 0x481010) 31 31 1)

theorem rv_mbTaken (op : Nat) (s : State) {k : Nat} (hcmd : k ≠ 0x48100C) (hsts : k ≠ 0x481010) : rv (mbTaken op s) k = rv s k := by
  simp [mbTaken, rv_rset, hcmd, hsts]

theorem mbTaken_busy (op : Nat) (s : State) : rb (mbTaken op s) 0x481010 31 = true := by
  simp [mbTaken, rb_rset, bit_setBits_one]

/-- What an admitted command of STW_MBCMD does: while BUSY its word is not stored. -/
theorem askedW_mb {r : Req} {s : State} (h : mayWrite r 0x48100C s) (op : Nat) (f : State → State) :
    askedW r 0x48100C op f s = f (if mbBusy s then s else rset s 0x48100C (w32 op)) := asked_admitted h _

/-- STW_MBCMD and STW_MBSTS are two registers. -/
theorem mbBusy_rset_cmd (s : State) (w : Word) : mbBusy (rset s 0x48100C w) = mbBusy s := by simp [mbBusy, rb_rset]

theorem exec_mbLoad {r : Req} {s : State} (hacc : mayWrite r 0x48100C s) (hfree : mbBusy s = false) (img : List Byte) :
    exec (.mbLoad r img) s = .next (if s.ctl.cur.isSome || s.load.phase ≠ 0 then loadFail ⟨0x0C, 0, 0⟩ (mbTaken (2 ^ 28) s)
      else { mbTaken (2 ^ 28) s with
        load := { Load.init with phase := 1, bytes := img.take (rf s 0x481008 22 0), len := rf s 0x481008 22 0 } }) := by
  have hlen : mbLen (mbTaken (2 ^ 28) s) = rf s 0x481008 22 0 := by unfold mbLen rf; rw [rv_mbTaken] <;> decide
  refine congrArg _ ((askedW_mb hacc _ _).trans ?_)
  rw [hfree, ← hlen]
  simp [mbLoad, mbBusy_rset_cmd, hfree, mbTaken, rv_rset]

theorem exec_mbMsg {r : Req} {s : State} (hacc : mayWrite r 0x48100C s) (hfree : mbBusy s = false) :
    exec (.mbMsg r) s = .next (emit (.toSteward (wordBytes (mbMsgWords s)))
      { mbTaken (2 ^ 29) s with ctl := { s.ctl with msg := true } }) := by
  have hwords : mbMsgWords (mbTaken (2 ^ 29) s) = mbMsgWords s :=
    List.map_congr_left fun w _ => rv_mbTaken _ s (by omega) (by omega)
  refine congrArg _ ((askedW_mb hacc _ _).trans ?_)
  rw [hfree, ← hwords]
  simp [mbMsg, mbBusy_rset_cmd, hfree, mbTaken, mbMsgWords, rv_rset]

/-- A command written while BUSY is rejected (20 R531). -/
theorem exec_mbMsg_busy {r : Req} {s : State} (hacc : mayWrite r 0x48100C s) (hbusy : mbBusy s = true) :
    exec (.mbMsg r) s = .next (cfgReject 8 0 s) := by
  refine congrArg _ ((askedW_mb hacc _ _).trans ?_)
  rw [hbusy]
  exact if_pos hbusy

/-- The status and the word of a MSG that ends. -/
theorem rv_msgEnd (xfer res : Nat) (s : State) (k : Nat) :
    rv (msgEnd xfer res s) k = if k = 0x481010 then w32 (2 ^ 30 + 2 ^ 29 + xfer * 2 ^ 24 + res) else rv s k :=
  (raiseMsixIf_keeps (fun t => rv t k) (fun _ _ _ => rfl) _ _ _ _).trans (rv_rset _ _ _ _)

theorem msgEnd_msg (xfer res : Nat) (s : State) : (msgEnd xfer res s).ctl.msg = false :=
  raiseMsixIf_keeps (fun t => t.ctl.msg) (fun _ _ _ => rfl) _ _ _ _

theorem exec_stewardReply {s : State} (hmsg : s.ctl.msg = true) (hup : stwUp s = true) (res : Byte) (b : List Byte) :
    exec (.stewardReply res b) s = .next (msgEnd 0 res.toNat
      (foldS (List.range 64) (fun w s => rset s (0x481200 + 4 * w) (w32 (leVal (sliceB b (4 * w) 4)))) s)) := by
  show execStewardReply res b s = _
  simp [execStewardReply, hmsg, hup]

/-! ### The end of a load (20 R532, 02 R83) -/

/-- STW_MBSTS and the status word after a load ends; every other register stays. -/
theorem rv_loadEnd (xfer st : Nat) (w : Word) (s : State) (k : Nat) :
    rv (loadEnd xfer st w s) k =
      if k = 0x481014 then w else if k = 0x481010 then w32 (2 ^ 30 + 2 ^ 28 + xfer % 4 * 2 ^ 24 + st % 256) else rv s k := by
  have hregs : (loadEnd xfer st w s).regs = (rset (rset s 0x481010 _) 0x481014 w).regs :=
    raiseMsixIf_keeps State.regs (fun _ _ _ => rfl) _ _ _ _
  rw [rv_congr (congrArg (·.vals) hregs), rv_rset, rv_rset]

theorem loadEnd_load (xfer st : Nat) (w : Word) (s : State) : (loadEnd xfer st w s).load = Load.init :=
  raiseMsixIf_keeps State.load (fun _ _ _ => rfl) _ _ _ _

theorem loadEnd_img (xfer st : Nat) (w : Word) (s : State) : (loadEnd xfer st w s).img = s.img :=
  raiseMsixIf_keeps State.img (fun _ _ _ => rfl) _ _ _ _

theorem loadEnd_cores (xfer st : Nat) (w : Word) (s : State) : (loadEnd xfer st w s).cores = s.cores :=
  raiseMsixIf_keeps State.cores (fun _ _ _ => rfl) _ _ _ _

theorem loadEnd_sec (xfer st : Nat) (w : Word) (s : State) : (loadEnd xfer st w s).sec = s.sec :=
  raiseMsixIf_keeps State.sec (fun _ _ _ => rfl) _ _ _ _

theorem exec_imageCheck_partial {s : State} (hboot : s.boot.phase = 3) (hload : s.load.phase = 1) (hup : stwUp s = true) (ok : Bool)
    (fa fb : Option (List Byte × List Byte)) :
    exec (.imageCheck ok fa fb) s = .next (if ok then loadJudge s else loadEnd 1 0 0 s) := by
  show execImageCheck ok fa fb s = _
  simp [execImageCheck, hboot, hload, hup]

theorem exec_pgrfWaitTimeout {s : State} (hload : s.load.phase = 2) (htodo : 9 ∈ s.load.todo) (hkept : s.load.kept = false)
    (hlate : s.load.since + 100000000 ≤ s.clk.fab) : exec .pgrfWaitTimeout s = .next (loadFail ⟨0x0B, 9, 0xFFFFFF⟩ s) := by
  show execPgrfWaitTimeout s = _
  simp [execPgrfWaitTimeout, hload, htodo, hkept, hlate]

/-! ### The order of the sections (02 R86, 04 R140) -/

/-- With no section left nothing commits. -/
theorem loadGo_done {s : State} (h : s.load.todo = []) (n : Nat) : loadGo n s = s := by
  cases n with
  | zero => rfl
  | succ n => simp [loadGo, h]

/-- No section commits before the slots of a PGRF section are kept. -/
theorem loadGo_waits {s : State} (htodo : 9 ∈ s.load.todo) (hkept : s.load.kept = false) (n : Nat) : loadGo n s = s := by
  cases n with
  | zero => rfl
  | succ n => cases h : s.load.todo with
    | nil => simp [loadGo, h]
    | cons ty t =>
      rw [h] at htodo
      simp [loadGo, h, hkept, htodo]

theorem loadGo_commits {s : State} {ty : Nat} {l : List Nat} (htodo : s.load.todo = ty :: l) (hset : loadSettled s = true)
    (hkept : s.load.kept = true) (n : Nat) :
    loadGo (n + 1) s = loadGo n (secCommit ty { s with load := { s.load with todo := l, begun := true } }) := by
  simp [loadGo, htodo, hset, hkept]

theorem loadJudge_waits {s : State} {p : PImg} (hcheck : partCheck s s.load.len s.load.bytes = .inr p) (hpgrf : 9 ∈ p.types)
    (hkept : s.load.kept = false) :
    loadJudge s = { s with load := { s.load with phase := 2, todo := p.types, since := s.clk.fab } } := by
  unfold loadJudge
  rw [hcheck]
  exact loadGo_waits (s := { s with load := { s.load with phase := 2, todo := p.types, since := s.clk.fab } }) hpgrf hkept 12

theorem exec_loadComplete {s : State} (hload : s.load.phase = 2) (hup : stwUp s = true) (htodo : s.load.todo = [])
    (hset : loadSettled s = true) : exec .loadComplete s = .next (loadDone s) := by
  show execLoadComplete s = _
  simp [execLoadComplete, hload, hup, loadGo_done htodo, htodo, hset]

/-! ### The commit of a PGRF section (04 R140) -/

/-- A reader that looks neither at what the journal and the error collector may change nor at the graphs, epochs and fragments of
the rules. -/
def EpochBlind {β : Type} (g : State → β) : Prop :=
  (∀ s t, ercOnly s t → g t = g s) ∧
  ∀ s gs es fs, g { s with rules := { s.rules with graphs := gs, epochs := es, frags := fs } } = g s

theorem epochBlind_load : EpochBlind State.load := ⟨fun _ _ h => congrArg (·.load) h, fun _ _ _ _ => rfl⟩

theorem epochBlind_graphNow : EpochBlind (fun s => s.rules.graphNow) :=
  ⟨fun _ _ h => congrArg (·.rules.graphNow) h, fun _ _ _ _ => rfl⟩

section
variable {β : Type} {g : State → β} (hg : EpochBlind g)
include hg

theorem epochBlind_rset (k : Nat) (w : Word) (s : State) : g (rset s k w) = g s := hg.1 _ _ (ercOnly_rset s k w)

theorem epochFree_keeps (i q : Nat) (s : State) : g (epochFree i q s) = g s :=
  (hg.2 _ _ _ _).trans ((hg.2 _ _ _ _).trans ((epochBlind_rset hg _ _ _).trans (hg.2 s s.rules.graphs s.rules.epochs _)))

theorem epochDrain_keeps (i : Nat) (s : State) : g (epochDrain i s) = g s := by
  unfold epochDrain
  split
  · rfl
  · simp only
    split
    · exact (epochFree_keeps hg _ _ _).trans (epochBlind_rset hg _ _ _)
    · exact epochBlind_rset hg _ _ _

theorem commitRange_keeps (a b : Nat) (s : State) : g (commitRange a b s) = g s := by
  refine foldS_keeps g _ _ (fun off _ s => ?_) s
  unfold hCommit
  split
  · exact hg.1 _ _ rfl
  · rfl

/-- Such a reader sees nothing of a new epoch: the graph that the next epoch binds and the load stay. -/
theorem epochCommit_keeps (i k : Nat) (s : State) : g (epochCommit i k s) = g s := by
  have hset := epochBlind_rset hg
  have hranges := foldS_keeps g (fun r s => commitRange r.1 r.2 s) (ruleRanges i) fun r _ s => commitRange_keeps hg r.1 r.2 s
  exact (hset _ _ _).trans ((hg.1 _ _ (jnlInput_only _ _ _ _)).trans ((hg.2 _ _ _ _).trans ((hset _ _ _).trans ((hset _ _ _).trans
    ((hranges _).trans (epochDrain_keeps hg i s))))))

end

/-- To such a reader the commit of a PGRF section puts the graph slot it took in force, and no more. -/
theorem secCommit_pgrf_keeps {β : Type} {g : State → β} (hg : EpochBlind g) {s : State} {k : Nat}
    (hslot : (List.range 4).find? (fun k => !mhas s.rules.graphs k) = some k) :
    g (secCommit 9 s) = g { s with rules := { s.rules with graphNow := k } } := by
  simp only [secCommit, hslot]
  refine (foldS_keeps g _ _ (fun e _ s => ?_) _).trans
    (hg.2 { s with rules := { s.rules with graphNow := k } } _ s.rules.epochs s.rules.frags)
  split
  · exact epochCommit_keeps hg _ _ _
  · rfl

/-- The slots of a load with a PGRF section are free: there is a free graph slot (04 R140). -/
theorem pgrfReady_slot {s : State} (h : pgrfReady s = true) :
    ∃ k, (List.range 4).find? (fun k => !mhas s.rules.graphs k) = some k ∧ mhas s.rules.graphs k = false := by
  simp only [pgrfReady, Bool.and_eq_true] at h
  obtain ⟨k, hk⟩ := Option.isSome_iff_exists.mp (List.find?_isSome.mpr (List.any_eq_true.mp h.2))
  exact ⟨k, hk, by simpa using List.find?_some hk⟩

/-- The slots of a load are kept, and the last of its sections begins to commit. -/
def lastBegun (s : State) : State := { s with load := { s.load with kept := true, todo := [], begun := true } }

theorem exec_pgrfCommit {s : State} (hload : s.load.phase = 2) (htodo : s.load.todo = [9]) (hkept : s.load.kept = false)
    (hready : pgrfReady s = true) (hset : loadSettled s = true) :
    exec .pgrfCommit s = .next (secCommit 9 (lastBegun s)) := by
  obtain ⟨k, hslot, -⟩ := pgrfReady_slot hready
  show execPgrfCommit s = _
  unfold execPgrfCommit
  rw [if_pos (by simp [hload, htodo, hkept, hready])]
  have hcommits := loadGo_commits (s := { s with load := { s.load with kept := true } }) htodo hset rfl 11
  have htaken := secCommit_pgrf_keeps (s := lastBegun s) epochBlind_load hslot
  exact congrArg _ (hcommits.trans (loadGo_done (congrArg (·.todo) htaken) 11))

/-! ### Reshape points (02 R87) -/

/-- A reader that does not look at the dispatcher sees nothing of items that are mapped again. -/
theorem remapAll_keeps {β : Type} (g : State → β) (h : ∀ s d, g { s with dsp := d } = g s) (s : State) : g (remapAll s) = g s := by
  have hitem (e : Nat) (s : State) : g (itemRemap e s) = g s := by
    unfold itemRemap
    split
    · rfl
    · split
      · exact (h _ _).trans ((h _ _).trans (h _ _))
      · rfl
  have hitemIf (c : Bool) (e : Nat) (s : State) : g (if c then itemRemap e s else s) = g s := by
    cases c with
    | false => rfl
    | true => exact hitem e s
  refine foldS_keeps g _ s.dsp.items (fun p _ s => ?_) s
  split
  · exact hitemIf _ _ _
  · rfl

/-- Core `c` waits for its reshape point no longer. -/
def moveDone (c : Nat) (s : State) : State := { s with ctl := { s.ctl with moves := s.ctl.moves.filter (fun m => m.1 != c) } }

/-- Core `c` is unused again: the memory of its physical core `p` is clear and no posy has it. -/
def coreUnused (c p : Nat) (s : State) : State :=
  { coreZero p s with img := { s.img with posy := s.img.posy.filter (fun r => r.isSet || r.core != c) } }

/-- A core that returns to unused, as seen by a reader that looks neither at the dispatcher nor at threads. -/
theorem reshape_back_keeps {β : Type} (g : State → β) (hdsp : ∀ s d, g { s with dsp := d } = g s)
    (hthr : ∀ s l, g { s with cores := { s.cores with thr := l } } = g s) (c : Nat) (s : State) :
    g (reshape c true s) = g (coreUnused c (physCore s c) (moveDone c s)) := by
  refine (remapAll_keeps g hdsp _).trans ?_
  exact foldS_keeps (fun t => g (coreUnused c (physCore s c) t)) _ _ (fun _ _ t => hthr (coreUnused c (physCore s c) t) _) _

theorem cmByte_coreUnused (c p : Nat) (s : State) {a : Nat} (h : a < 131072) : cmByte (coreUnused c p s) p a = 0 := by
  refine (mget_mclear _ _ _ _ _).trans (if_pos ?_)
  unfold cmKey
  omega

/-- A core that joins its new posy, as seen by a reader that does not look at the dispatcher. -/
theorem reshape_join_keeps {β : Type} (g : State → β) (hdsp : ∀ s d, g { s with dsp := d } = g s) (c : Nat) (s : State) :
    g (reshape c false s) = g (moveDone c s) := by
  simp only [reshape, Bool.false_eq_true, if_false]
  split
  · exact hdsp _ _
  · rfl

/-- The move of a core that waits for one kind of move alone. -/
theorem find_move {l : List (Nat × Bool)} {c : Nat} {b : Bool} (hin : (c, b) ∈ l) (hout : (c, !b) ∉ l) :
    l.find? (fun m => m.1 == c) = some (c, b) := by
  have hsome : (l.find? (fun m => m.1 == c)).isSome := List.find?_isSome.mpr ⟨_, hin, beq_self_eq_true c⟩
  obtain ⟨⟨d, e⟩, hm⟩ := Option.isSome_iff_exists.mp hsome
  obtain rfl : d = c := by simpa using List.find?_some hm
  have hmem := List.mem_of_find?_eq_some hm
  rw [hm]
  by_cases he : e = b
  · rw [he]
  · exact absurd (Bool.eq_not.mpr he ▸ hmem) hout

theorem exec_posyReshapePoint {c : Fin 128} {b : Bool} {s : State} (hin : (c.val, b) ∈ s.ctl.moves)
    (hout : (c.val, !b) ∉ s.ctl.moves) (hpoint : reshapePoint s c.val = true) (htodo : s.load.todo = []) :
    exec (.posyReshapePoint c) s = .next (reshape c.val b s) := by
  have hload : (reshape c.val b s).load = s.load := by
    cases b with
    | false => exact reshape_join_keeps State.load (fun _ _ => rfl) _ _
    | true => exact reshape_back_keeps State.load (fun _ _ => rfl) (fun _ _ => rfl) _ _
  show execPosyReshapePoint c s = _
  unfold execPosyReshapePoint
  rw [find_move hin hout]
  simp only [hpoint, if_true]
  rw [loadGo_done (by rw [hload, htodo])]

/-! ### A full image at boot (19 R511) -/

/-- Loading the instruction stores touches the cores alone. -/
theorem storesLoad_keeps {β : Type} (g : State → β) (h : ∀ s c, g { s with cores := c } = g s) (s : State) :
    g (storesLoad s) = g s :=
  foldS_keeps g _ _ (fun _ _ s => (foldS_keeps g _ _ (fun _ _ s => h s _) _).trans (h s _)) s

/-- Blocks that leave RESET change their headers alone. -/
theorem blksRelease_keeps {β : Type} (g : State → β) (h : ∀ s b c f, g (blkMod s b c f) = g s) (l : List Nat) (s : State) :
    g (blksRelease l s) = g s :=
  foldS_keeps g _ _ (fun _ _ s => foldS_keeps g _ _ (fun _ _ s => h s _ _ _) s) s

theorem stwUp_congr {s t : State} (h : t.regs = s.regs) : stwUp t = stwUp s := by
  unfold stwUp rb
  rw [rv_congr (congrArg (·.vals) h)]

theorem stwUp_stewardStart (fw : List Byte) (s : State) : stwUp (stewardStart fw s) = true := by
  refine (blksRelease_keeps stwUp (fun _ _ _ _ => rfl) _ _).trans ?_
  simp [stwUp, rsetF, rb_rset, bit_setBits_one]

theorem stewardStart_phase (fw : List Byte) (s : State) : (stewardStart fw s).boot.phase = 3 :=
  blksRelease_keeps (fun t => t.boot.phase) (fun _ _ _ _ => rfl) _ _

theorem stewardStart_flash (fw : List Byte) (s : State) : (stewardStart fw s).boot.flash = s.boot.flash :=
  blksRelease_keeps (fun t => t.boot.flash) (fun _ _ _ _ => rfl) _ _

theorem stewardStart_img (fw : List Byte) (s : State) : (stewardStart fw s).img = s.img :=
  blksRelease_keeps State.img (fun _ _ _ _ => rfl) _ _

theorem stewardStart_digImg (fw : List Byte) (s : State) : (stewardStart fw s).sec.digImg = s.sec.digImg :=
  blksRelease_keeps (fun t => t.sec.digImg) (fun _ _ _ _ => rfl) _ _

theorem stewardStart_digStw (fw : List Byte) (s : State) : (stewardStart fw s).sec.digStw = sha256 (signedOf fw) :=
  blksRelease_keeps (fun t => t.sec.digStw) (fun _ _ _ _ => rfl) _ _

/-- A verified image is in force and its instruction stores are loaded; the steward has not started. -/
def imagePut (img : List Byte) (p : PImg) (s : State) : State :=
  let s := { s with
    img := p.img
    rules := { s.rules with graphs := [(0, p.graph)], graphNow := 0 }
    sec := { s.sec with digImg := sha256 (signedOf img), arbImg := (uN img 25 1, uN img 26 1) } }
  rset (storesLoad s) 0x481018 (w32 p.img.serial)

theorem imagePut_boot (img : List Byte) (p : PImg) (s : State) : (imagePut img p s).boot = s.boot := by
  rw [imagePut, rset_boot, storesLoad_keeps State.boot fun _ _ => rfl]

theorem imagePut_img (img : List Byte) (p : PImg) (s : State) : (imagePut img p s).img = p.img := by
  rw [imagePut, rset_img, storesLoad_keeps State.img fun _ _ => rfl]

theorem imagePut_digImg (img : List Byte) (p : PImg) (s : State) : (imagePut img p s).sec.digImg = sha256 (signedOf img) := by
  rw [imagePut, rset_sec, storesLoad_keeps State.sec fun _ _ => rfl]

theorem imageForce_eq (fw img : List Byte) (p : PImg) (s : State) :
    imageForce fw img p s = setIns 0 .creating (stewardStart fw (imagePut img p s)) := rfl

@[simp] theorem imageForce_phase (fw img : List Byte) (p : PImg) (s : State) : (imageForce fw img p s).boot.phase = 3 := by
  rw [imageForce_eq, setIns_boot, stewardStart_phase]

@[simp] theorem imageForce_flash (fw img : List Byte) (p : PImg) (s : State) :
    (imageForce fw img p s).boot.flash = s.boot.flash := by
  rw [imageForce_eq, setIns_boot, stewardStart_flash, imagePut_boot]

@[simp] theorem imageForce_img (fw img : List Byte) (p : PImg) (s : State) : (imageForce fw img p s).img = p.img := by
  rw [imageForce_eq, setIns_img, stewardStart_img, imagePut_img]

@[simp] theorem imageForce_digImg (fw img : List Byte) (p : PImg) (s : State) :
    (imageForce fw img p s).sec.digImg = sha256 (signedOf img) := by
  rw [imageForce_eq, setIns_sec, stewardStart_digImg, imagePut_digImg]

@[simp] theorem imageForce_digStw (fw img : List Byte) (p : PImg) (s : State) :
    (imageForce fw img p s).sec.digStw = sha256 (signedOf fw) := by
  rw [imageForce_eq, setIns_sec, stewardStart_digStw]

@[simp] theorem imageForce_creating (fw img : List Byte) (p : PImg) (s : State) :
    insState (imageForce fw img p s) 0 = .creating := by
  rw [imageForce_eq, insState_setIns, if_pos rfl]

@[simp] theorem stwUp_imageForce (fw img : List Byte) (p : PImg) (s : State) : stwUp (imageForce fw img p s) = true :=
  (stwUp_congr (setIns_regs _ _ _)).trans (stwUp_stewardStart fw (imagePut img p s))

@[simp] theorem bootUsed_boot (s : State) : (bootUsed s).boot = s.boot := by rw [bootUsed, rsetF_boot]
@[simp] theorem bootUsed_img (s : State) : (bootUsed s).img = s.img := by rw [bootUsed, rsetF_img]
@[simp] theorem bootUsed_sec (s : State) : (bootUsed s).sec = s.sec := by rw [bootUsed, rsetF_sec]
@[simp] theorem insState_bootUsed (s : State) (i : Nat) : insState (bootUsed s) i = insState s i := rfl

/-- USED is no bit of RST_STS. -/
@[simp] theorem stwUp_bootUsed (s : State) : stwUp (bootUsed s) = stwUp s := by
  unfold stwUp bootUsed rsetF
  rw [rb_rset, if_neg (by omega)]

theorem rb_bootUsed (s : State) : rb (bootUsed s) (0x181004 + 8 * s.boot.flash) 30 = true := by
  simp [bootUsed, rsetF, rb_rset, bit_setBits_one]

theorem exec_imageCheck_boot {s : State} {k : Nat} {fw img : List Byte} {l : List (Nat × Flash)} {p : PImg}
    (hboot : s.boot.phase = 2) (hstaged : s.boot.staged = (k, some (fw, img)) :: l) (hlife : lcState s ≠ 3)
    (htrained : s.boot.trained = some true) (hfuses : fusesStop s = false) (hcheck : fullCheck s img = .inr p) (ok : Bool)
    (fa fb : Option (List Byte × List Byte)) :
    exec (.imageCheck ok fa fb) s = .next (bootUsed (imageForce fw img p s)) := by
  show execImageCheck ok fa fb s = _
  simp [execImageCheck, hboot, bootFinish, hstaged, hlife, htrained, hfuses, hcheck]

/-! ### The statement on images -/

/-- Settles O47: each clause names the stage its command comes to, and reads the result off what that stage writes. -/
theorem imageLoading : Obligations.ImageLoading := by
  unfold Obligations.ImageLoading
  refine ⟨?mailbox, ?secondCommand, ?reply, ?partialImage, ?fullImage, ?pgrfCommit, ?pgrfTimeout, ?joins, ?returns, ?complete⟩
  case mailbox =>
    intro r img s hacc hfree
    have hload := exec_mbLoad hacc hfree img
    refine ⟨fun hcur hphase => ?taken, fun hcur => ?inProgress, ?message⟩
    case taken =>
      rw [if_neg (by simp [hcur, hphase])] at hload
      exact ⟨_, hload, mbTaken_busy _ s, rfl, rfl, rfl, rfl⟩
    case inProgress =>
      rw [if_pos (by simp [hcur])] at hload
      exact ⟨_, hload, rv_loadEnd _ _ _ _ _, rv_loadEnd _ _ _ _ _, loadEnd_img _ _ _ _⟩
    case message => exact ⟨_, exec_mbMsg hacc hfree, mbTaken_busy _ s, rfl, rfl⟩
  case secondCommand =>
    intro r s hacc hbusy
    exact ⟨_, exec_mbMsg_busy hacc hbusy, rfl, rfl, cfgReject_sets 8 0 s⟩
  case reply =>
    intro res b s hmsg hup
    refine ⟨_, exec_stewardReply hmsg hup res b, msgEnd_msg _ _ _, ?status, fun w hw => ?word⟩
    case status => rw [rv_msgEnd, if_pos rfl]; rfl
    case word => rw [rv_msgEnd, if_neg (by omega), rv_rsetRange, if_pos hw]; rfl
  case partialImage =>
    intro fa fb s hboot hload hup
    have hexec ok := exec_imageCheck_partial hboot hload hup ok fa fb
    refine ⟨⟨_, hexec false, rv_loadEnd _ _ _ _ _, loadEnd_load _ _ _ _, loadEnd_img _ _ _ _⟩, fun e hcheck hst => ?fails,
      fun p hcheck hpgrf hkept => ?waits⟩
    case fails =>
      have hjudge : loadJudge s = loadFail e s := by unfold loadJudge; rw [hcheck]
      refine ⟨_, (hexec true).trans (congrArg _ hjudge), ?_, rv_loadEnd _ _ _ _ _, loadEnd_load _ _ _ _, loadEnd_img _ _ _ _,
        loadEnd_cores _ _ _ _⟩
      refine (rv_loadEnd _ _ _ _ _).trans ?_
      simp [w32, Nat.mod_eq_of_lt hst]
    case waits => exact ⟨_, (hexec true).trans (congrArg _ (loadJudge_waits hcheck hpgrf hkept)), rfl, rfl, rfl, rfl⟩
  case fullImage =>
    intro fa fb ok s k fw img l p hboot hstaged hlife htrained hfuses hcheck _
    have hused := rb_bootUsed (imageForce fw img p s)
    rw [imageForce_flash] at hused
    refine ⟨_, exec_imageCheck_boot hboot hstaged hlife htrained hfuses hcheck ok fa fb, ?_⟩
    simp [hused]
  case pgrfCommit =>
    intro s hload htodo hkept hready hset
    obtain ⟨k, hslot, hnew⟩ := pgrfReady_slot hready
    have hloads := secCommit_pgrf_keeps (s := lastBegun s) epochBlind_load hslot
    have hgraph := secCommit_pgrf_keeps (s := lastBegun s) epochBlind_graphNow hslot
    refine ⟨_, exec_pgrfCommit hload htodo hkept hready hset, congrArg (·.todo) hloads, congrArg (·.kept) hloads,
      congrArg (·.begun) hloads, ?_⟩
    simpa only [hgraph] using hnew
  case pgrfTimeout =>
    intro s hload htodo hkept hlate
    exact ⟨_, exec_pgrfWaitTimeout hload htodo hkept hlate, rv_loadEnd _ _ _ _ _, rv_loadEnd _ _ _ _ _, loadEnd_load _ _ _ _,
      loadEnd_img _ _ _ _⟩
  case joins =>
    intro c s hin hout hpoint htodo
    have hkeeps {β : Type} (g : State → β) h := reshape_join_keeps g h c.val s
    exact ⟨_, exec_posyReshapePoint hin hout hpoint htodo, hkeeps (fun t => t.ctl.moves) fun _ _ => rfl,
      hkeeps State.img fun _ _ => rfl, hkeeps State.cores fun _ _ => rfl⟩
  case returns =>
    intro c s hin hout hpoint htodo
    have hkeeps {β : Type} (g : State → β) h h' := reshape_back_keeps g h h' c.val s
    refine ⟨_, exec_posyReshapePoint hin hout hpoint htodo, hkeeps (fun t => t.ctl.moves) (fun _ _ => rfl) fun _ _ => rfl,
      hkeeps (fun t => t.img.posy) (fun _ _ => rfl) fun _ _ => rfl, fun a ha => ?_⟩
    exact (hkeeps (fun t => cmByte t (physCore s c.val) a) (fun _ _ => rfl) fun _ _ => rfl).trans (cmByte_coreUnused _ _ _ ha)
  case complete =>
    intro s hload hup htodo hset
    refine ⟨_, exec_loadComplete hload hup htodo hset, rv_loadEnd _ _ _ _ _, ?serial, loadEnd_load _ _ _ _,
      congrArg (·.serial) (loadEnd_img _ _ _ _), congrArg (·.digImg) (loadEnd_sec _ _ _ _)⟩
    case serial => exact (rv_loadEnd _ _ _ _ _).trans (rv_rset_self _ _ _)

end Sys2Proof.Machine
end
